-- ==== Sys2Proof/Word.lean ====
section
/-! DEFINITION. The words of the SF960: bytes and byte pairs of the host link, addresses, tariff codes,
group numbers and the other small codes the manual numbers. -/

namespace Sys2Proof

/-- One byte of a host-link frame or of a line frame. -/
abbrev Byte := BitVec 8

/-- A two-byte field of a host-link frame, most significant byte first (R183). -/
abbrev Half := BitVec 16

/-- An endpoint address 256 × s + u, 0..2047 (R11): segment in the top three bits, unit in the low eight. -/
abbrev Addr := BitVec 11

/-- A segment 0..7. -/
abbrev Segment := BitVec 3

/-- A tariff code 0..15; code 0 is the fail-safe tariff. -/
abbrev Tariff := BitVec 4

/-- A check value 0..15 (R14). -/
abbrev CheckValue := BitVec 4

/-- A receive or endpoint quality 0..15; 0 is the weakest (R14, R22). -/
abbrev Quality := BitVec 4

/-- A line sequence 0..63 (R106). -/
abbrev Seq := BitVec 6

/-- A boundary number of the slot grid: a 32-bit count from 0 at each lock (R4). -/
abbrev Boundary := BitVec 32

/-- A second of uptime (R141). -/
abbrev Uptime := BitVec 32

/-- A group number 0..31 (R68). -/
abbrev Group := Fin 32

/-- A notice group 0..7 (R26). -/
abbrev NoticeGroup := Fin 8

/-- A notice line 0..19 (R162). -/
abbrev Line := Fin 20

/-- One of the 50 sources of the Condition Tracker (R161). -/
abbrev SourceId := Fin 50

end Sys2Proof
end

