-- ==== Sys2Proof/Config.lean ====
section
/-! DEFINITION. What one part fixes, and the values the manual leaves open: constants without a body, so no
statement can rest on a value of theirs. -/

namespace Sys2Proof.Config

/-- The silicon revision, "a constant 0..255 fixed in each part" (R178). Free value, log entry 24. -/
opaque siliconRevision : Byte

/-- What the part sends in the bytes of a route or a group list that its count leaves unused (R183 and R186 give
their place and no value); the argument is the byte's offset in the list. Free value, log entry 23. -/
opaque unusedByte : Nat → Byte

/-- What stands in the 11 bits of the minutes of a PLAN_LIST entry that has none (R179, R184 give no value).
Free value, log entry 23. -/
opaque absentMinutes : BitVec 11

/-- The five bytes of the due time in a PLAN_ADD reply whose entry is no longer in the plan (R145 names the field
and gives no value for that case). Free value, log entry 23. -/
opaque removedEntryDue : BitVec 40

/-- What the part transmits as the tariff of a delivery for a record without a desired tariff. R44 and R86 rule
that record out; the value is open so that nothing can rest on it. Free value, log entry 31. -/
opaque undefinedTariff : Tariff

end Sys2Proof.Config
end

