-- ==== Sys2Proof/Syntax.lean ====
section
/-! DEFINITION. The commands of the SF960: one constructor of Instr for each row of spec/opcode_table.json, with
its operands. A request's operands are the fields of R179 as they stand on the link (R183). -/

namespace Sys2Proof

/-- One of the three phases: a coupler's conductor and its receive path. -/
inductive Phase where
  | a | b | c
  deriving DecidableEq, Repr

/-- A route field of five bytes: a hop count and two address fields (R183). -/
structure RouteField where
  count : Byte
  hop1 : Half
  hop2 : Half
  deriving DecidableEq, Repr

/-- A group list field of five bytes: a count and four group bytes (R183). -/
structure GroupField where
  count : Byte
  g0 : Byte
  g1 : Byte
  g2 : Byte
  g3 : Byte
  deriving DecidableEq, Repr

/-- The 27 payload bytes of ENROL, in the order of R179. -/
structure EnrolFields where
  addr : Half
  check : Byte
  cls : Byte
  enforce : Byte
  pinned : Byte
  primary : RouteField
  alternate : RouteField
  fixedCoupler : Byte
  groups : GroupField
  noticeGroup : Byte
  initialTariff : Byte
  assumedHeld : Byte
  fresh : Byte
  priority : Byte
  deriving DecidableEq, Repr

/-- The 23 payload bytes of AMEND, in the order of R179. -/
structure AmendFields where
  addr : Half
  cls : Byte
  enforce : Byte
  pinned : Byte
  primary : RouteField
  alternate : RouteField
  fixedCoupler : Byte
  groups : GroupField
  noticeGroup : Byte
  priority : Byte
  deriving DecidableEq, Repr

/-- The 16 payload bytes of PLAN_ADD, in the order of R179; the four target bytes stand apart. -/
structure PlanFields where
  dueDay : Half
  dueSecond : BitVec 24
  daily : Byte
  form : Byte
  t0 : Byte
  t1 : Byte
  t2 : Byte
  t3 : Byte
  action : Byte
  tariff : Byte
  minutes : Half
  priority : Byte
  deriving DecidableEq, Repr

/-- The commands: the 54 rows of spec/opcode_table.json. -/
inductive Instr where
  /-- POWER_ON_RESET (R178): the levels of the strap pins RATE1 and RATE0, none for a pin left unconnected. -/
  | powerOnReset (rate1 : Option Bool) (rate0 : Option Bool)
  /-- ZERO_CROSSING (R2, R4, R7): a change of the ZC input, with its time in microseconds. -/
  | zeroCrossing (time : Nat)
  /-- ACQUIRING_MISSING_CROSSING (R2): 15 ms have passed with no crossing. -/
  | acquiringMissingCrossing
  /-- MISSING_CROSSING (R5): 1.5 N have passed with no counted crossing. -/
  | missingCrossing
  /-- MAINS_LOSS (R6): a further 1.5 N have passed after the substitute crossing. -/
  | mainsLoss
  /-- SLOT_BOUNDARY (R93): the slot boundary event is taken. -/
  | slotBoundary
  /-- LINE_FRAME_RECEIVED (R22): a receive path takes energy (no bytes) or a frame, with its receive quality. -/
  | lineFrameReceived (path : Phase) (bytes : List Byte) (quality : Quality)
  /-- TRANSACTION_END (R109): the next transaction to end is an individual one and ends. -/
  | transactionEnd
  /-- SCRUB_DECISION (R133): the POLL part of the scrub in flight ends. -/
  | scrubDecision
  /-- GROUP_FRAME_END (R79): the next transaction to end is a group frame and ends. -/
  | groupFrameEnd
  /-- SECOND_EVENT (R141): one second of the crystal. -/
  | secondEvent
  /-- REFRESH_INTERVAL_EXPIRY (R125): the interval timer, reached by uptime, expires. -/
  | refreshIntervalExpiry
  /-- OVERRIDE_END_DUE (R154): the override ends reached by uptime are applied. -/
  | overrideEndDue
  /-- PLAN_ENTRY_DUE (R147): the due check owed after the clock's advance is made. -/
  | planEntryDue
  /-- INTER_BYTE_GAP (R173): more than 5 ms pass between two bytes of a frame. -/
  | interByteGap
  /-- FRAME_DISCARDED (R173): a START finds the waiting-frame buffer holding a complete frame. -/
  | frameDiscarded
  /-- FRAME_COMPLETE (R173, R174): the frame being received is complete; the bytes after START are given. -/
  | frameComplete (bytes : List Byte)
  /-- FRAME_ERROR (R175): a taken frame with a bad LEN or CRC is answered. -/
  | frameError
  /-- UNKNOWN_REQUEST (R175): a taken frame with an unknown KIND is answered. -/
  | unknownRequest (kind : Byte)
  /-- LINK_TRANSMITTER_FREE (R177): the link transmitter is free and begins its next frame. -/
  | linkTransmitterFree
  /-- STATUS (R180). -/
  | status (clear : Byte)
  /-- CONFIGURE (R181): pairs of parameter number and value. -/
  | configure (pairs : List (Byte × Half))
  /-- SEGMENT_SET (R24). -/
  | segmentSet (segment : Byte)
  /-- WINDOW_SET (R39). -/
  | windowSet (window : Byte) (base : Half) (limit : Half) (coupler : Byte) (enabled : Byte)
  /-- ENROL (R29 to R31). -/
  | enrol (fields : EnrolFields)
  /-- AMEND (R32 to R36). -/
  | amend (fields : AmendFields)
  /-- RETIRE (R37). -/
  | retire (addr : Half)
  /-- QUERY (R38). -/
  | query (addr : Half)
  /-- SET (R49 to R52). -/
  | set (addr : Half) (tariff : Byte) (priority : Byte)
  /-- SET_RANGE (R43). -/
  | setRange (segment : Byte) (start : Byte) (count : Half) (tariff : Byte) (priority : Byte)
  /-- SET_GROUP (R70 to R72). -/
  | setGroup (group : Byte) (tariff : Byte) (priority : Byte)
  /-- GROUP_SET (R73). -/
  | groupSet (group : Byte) (repeats : Byte)
  /-- GROUP_QUERY (R84). -/
  | groupQuery (group : Byte)
  /-- OVERRIDE with an endpoint target (R151). -/
  | override (target : Half) (tariff : Byte) (minutes : Half) (priority : Byte)
  /-- OVERRIDE with a group target (R152). -/
  | overrideGroup (target : Half) (tariff : Byte) (minutes : Half) (priority : Byte)
  /-- END_OVERRIDE with an endpoint target (R156). -/
  | endOverride (target : Half)
  /-- END_OVERRIDE with a group target (R156). -/
  | endOverrideGroup (target : Half)
  /-- POLL (R61). -/
  | poll (addr : Half) (priority : Byte)
  /-- PUSH of one address (R62). -/
  | push (addr : Half) (priority : Byte)
  /-- PUSH ALL (R63). -/
  | pushAll (priority : Byte)
  /-- FORGET (R64). -/
  | forget (addr : Half)
  /-- FORGET_ALL (R65). -/
  | forgetAll
  /-- PLAN_ADD (R145). -/
  | planAdd (fields : PlanFields)
  /-- PLAN_REMOVE (R146). -/
  | planRemove (id : Byte)
  /-- PLAN_LIST (R146). -/
  | planList (position : Byte)
  /-- TIME_SET (R143). -/
  | timeSet (day : Half) (second : BitVec 24)
  /-- REFRESH_NOW (R126). -/
  | refreshNow (n : Half)
  /-- NOTICE_MAP_SET (R163): source kind, notice group, line. -/
  | noticeMapSet (kind : Byte) (group : Byte) (line : Byte)
  /-- NOTICE_LINE_SET (R168). -/
  | noticeLineSet (line : Byte) (masked : Byte) (mode : Byte) (tag : Half)
  /-- NOTICE_DONE (R166). -/
  | noticeDone (tag : Half)
  /-- NOTICE_STATUS (R171). -/
  | noticeStatus
  /-- RESTART (R182). -/
  | restart
  /-- FRAME_START (R173): a START byte while the framer is HUNTING. -/
  | frameStart
  /-- DISCARD_END (R173): the frame being discarded ends. -/
  | discardEnd
  deriving DecidableEq, Repr

end Sys2Proof
end

