-- ==== Sys2Proof/WellFormed.lean ====
section
/-! DEFINITION. Which terms of Instr stand for something the part can be given. exec is total on the others too. -/

namespace Sys2Proof

/-- The KIND bytes of R179 are 0x01 to 0x1D. -/
def isRequestKind (kind : Byte) : Bool := 1 ≤ kind.toNat && kind.toNat ≤ 0x1D

/-- The bytes after START make one complete frame (R173): a LEN above 240 alone, or LEN, KIND, LEN payload bytes
and two CRC bytes. -/
def isCompleteFrame : List Byte → Bool
  | [] => false
  | len :: rest => if 240 < len.toNat then rest.isEmpty else rest.length == len.toNat + 3

/-- The form of each command's operands: a frame is complete, a payload fits LEN 0..240, a row that shares its
KIND with another holds the target that makes it this row, an unknown KIND is none of the table. -/
def Instr.wellFormed : Instr → Bool
  | .frameComplete bytes => isCompleteFrame bytes
  | .unknownRequest kind => !isRequestKind kind
  | .configure pairs => 1 ≤ pairs.length && pairs.length ≤ 80
  | .push addr _ => addr != 0xFFFF
  | .powerOnReset _ _ | .zeroCrossing _ | .acquiringMissingCrossing | .missingCrossing | .mainsLoss
  | .slotBoundary | .lineFrameReceived _ _ _ | .transactionEnd | .scrubDecision | .groupFrameEnd
  | .secondEvent | .refreshIntervalExpiry | .overrideEndDue | .planEntryDue | .interByteGap
  | .frameDiscarded | .frameError | .linkTransmitterFree | .status _ | .segmentSet _
  | .windowSet _ _ _ _ _ | .enrol _ | .amend _ | .retire _ | .query _ | .set _ _ _
  | .setRange _ _ _ _ _ | .setGroup _ _ _ | .groupSet _ _ | .groupQuery _ | .override _ _ _ _
  | .overrideGroup _ _ _ _ | .endOverride _ | .endOverrideGroup _ | .poll _ _ | .pushAll _
  | .forget _ | .forgetAll | .planAdd _ | .planRemove _ | .planList _ | .timeSet _ _
  | .refreshNow _ | .noticeMapSet _ _ _ | .noticeLineSet _ _ _ _ | .noticeDone _ | .noticeStatus
  | .restart | .frameStart | .discardEnd => true

end Sys2Proof
end

