-- ==== Sys2Proof/Decode.lean ====
section
/-! DEFINITION. spec/opcode_table.json gives no row any bits: no word spells a command. The bytes of the host link
that spell a request are read in Machine/HostFrames.lean. -/

namespace Sys2Proof

/-- The command a table word spells: none, since the table gives its rows neither fixed bits nor fields. -/
def decodeTableWord (_nbits _w : Nat) : Option Instr := none

end Sys2Proof
end

