-- ==== Sys2Proof/Machine/State.lean ====
section
/-! DEFINITION. Everything the spec gives the SF960 to hold, block by block, as plain data; and the state after
reset. Where the spec names one thing twice it is stored once and read by the other name (log entry 28). -/

namespace Sys2Proof.Machine

/-- A coupler of a record or a transaction: one phase, or BRIDGED, all three at once (R9). -/
inductive Coupler where
  | single (p : Phase)
  | bridged
  deriving DecidableEq, Repr

/-! ## Endpoint records (R26) -/

/-- The class of a record (R28). -/
inductive EndpointClass where
  | immediate | deferred | pass
  deriving DecidableEq, Repr

/-- How a record's coupler was decided (R40, R42). -/
inductive CouplerSource where
  | window | learned | fixed
  deriving DecidableEq, Repr

/-- What will serve the delivery of a PENDING record (R45). -/
inductive Cover where
  | ownEntry | inFlight
  | group (g : Group)
  | refresh
  deriving DecidableEq, Repr

/-- The image state; the cover is present exactly while the record is PENDING (R44, R45). -/
inductive Image where
  | none | unknown
  | pending (c : Cover)
  | confirmed | shared
  deriving DecidableEq, Repr

/-- REACHABLE or LOST (R118); the LOST flag of R158 is read from it. -/
inductive Reach where
  | reachable | lost
  deriving DecidableEq, Repr

/-- An active override: saved tariff, override end and override priority, together or absent (R150). -/
structure Override where
  saved : Tariff
  endsAt : Uptime
  priority : Nat
  deriving DecidableEq, Repr

/-- One endpoint record (R26) with the slot that holds it (R25). The own-entry reference is read from the queues. -/
structure Record where
  slot : Nat
  addr : Addr
  check : CheckValue
  cls : EndpointClass
  enforce : Bool
  pinned : Bool
  primary : List Addr
  alternate : Option (List Addr)
  coupler : Coupler
  source : CouplerSource
  redecodeDue : Bool
  intended : List Group
  confirmed : Option (List Group)
  noticeGroup : NoticeGroup
  image : Image
  desired : Option Tariff
  revision : BitVec 16
  mark : Option Seq
  override : Option Override
  held : Option Tariff
  restored : Bool
  relayFault : Bool
  localOverride : Bool
  holdExpired : Bool
  mismatch : Bool
  reach : Reach
  failures : Nat
  rxQuality : Option Quality
  endpointQuality : Option Quality
  inFlight : Bool
  deriving DecidableEq, Repr

/-- A route window (R39). -/
structure Window where
  base : Addr
  limit : Addr
  coupler : Phase
  enabled : Bool
  deriving DecidableEq, Repr

/-- What a group record stores: its tariff and repeat count (R68). Its frame state, queued entry and frame in
flight are read from the queues and the contexts. -/
structure GroupRecord where
  tariff : Option Tariff
  repeats : Fin 4
  deriving DecidableEq, Repr

/-- The frame state of a group (R68, R74). -/
inductive FrameState where
  | idle | queued | inFlight | inFlightQueued
  deriving DecidableEq, Repr

/-! ## Delivery Queues (R85, R86) -/

/-- What placed a queue entry; an entry of origin RETRY carries its route (R86). -/
inductive Origin where
  | request | plan | overrideEnd | repair
  | retry (route : List Addr)
  deriving DecidableEq, Repr

/-- The kind and the target of a queue entry; a PASS_DELIVER entry carries its tariff (R86). -/
inductive Work where
  | deliver (target : Addr)
  | poll (target : Addr)
  | passDeliver (target : Addr) (tariff : Tariff)
  | group (g : Group)
  deriving DecidableEq, Repr

/-- A queue entry (R86). -/
structure Entry where
  work : Work
  priority : Nat
  origin : Origin
  deriving DecidableEq, Repr

/-- The two queues of R85. -/
inductive QueueId where
  | urgent | normal
  deriving DecidableEq, Repr

/-! ## Transaction Engine (R105) -/

/-- What launched a transaction (R107). -/
inductive Source where
  | urgent | normal | refresh
  deriving DecidableEq, Repr

/-- The stage of a transaction (R105). -/
inductive Stage where
  | outbound | relayOut | answer | relayBack | extension | repeated
  deriving DecidableEq, Repr

/-- A SET frame's content as a scrub takes it at its extension (R110). -/
structure Extension where
  tariff : Tariff
  list : List Group
  deriving DecidableEq, Repr

/-- The kind of a transaction with the fields that R105 gives that kind; the extension flag of a scrub is set
exactly while its extension is present. -/
inductive Job where
  | set (target : Addr) (revision : BitVec 16) (tariff : Tariff) (list : List Group)
  | poll (target : Addr) (revision : BitVec 16)
  | scrub (target : Addr) (revision : BitVec 16) (extension : Option Extension)
  | passSet (target : Addr) (tariff : Tariff) (list : List Group)
  | group (g : Group) (tariff : Tariff) (repeats : Fin 4)
  deriving DecidableEq, Repr

/-- A transaction context (R105). -/
structure Context where
  job : Job
  source : Source
  coupler : Coupler
  route : List Addr
  seq : Seq
  stage : Stage
  remaining : Nat
  priority : Nat
  orphaned : Bool
  deriving DecidableEq, Repr

/-! ## Line (R1, R9, R22, R92) -/

/-- The line state (R1). -/
inductive LineState where
  | acquiring | up | down
  deriving DecidableEq, Repr

/-- The measured frequency once decided (R3). -/
inductive Frequency where
  | hz50 | hz60
  deriving DecidableEq, Repr

/-- The slot grid (R1): boundary number of the slot in progress, half-cycles closed in it, its length. -/
structure Grid where
  boundary : Boundary
  half : Nat
  length : Nat
  deriving DecidableEq, Repr

/-- The Mains Timing Unit (R1). `refTime` is the time of the crossing that the next one is timed from, and
`boundaryDue` says that a slot boundary event is produced and not yet taken (log entry 4). -/
structure Mains where
  line : LineState
  freq : Option Frequency
  good : Nat
  runSum : Nat
  missing : Nat
  returnFlag : Bool
  grid : Option Grid
  refTime : Nat
  boundaryDue : Bool
  deriving DecidableEq, Repr

/-- What the Line Transmitter sends in the slot in progress, and on what (R9). -/
structure Sending where
  coupler : Coupler
  bytes : List Byte
  deriving DecidableEq, Repr

/-- The content of an ACK line frame (R14, R185). -/
structure AckFrame where
  seq : Seq
  addr : BitVec 16
  check : CheckValue
  held : Tariff
  restored : Bool
  relayFault : Bool
  localOverride : Bool
  holdExpired : Bool
  quality : Quality
  deriving DecidableEq, Repr

/-- What one receive path has heard in the slot in progress (R22). -/
inductive PathHeard where
  | quiet
  | energy
  | ack (frame : AckFrame) (quality : Quality)
  | other
  deriving DecidableEq, Repr

/-- The three receive paths (R22). -/
structure Receivers where
  a : PathHeard
  b : PathHeard
  c : PathHeard
  deriving DecidableEq, Repr

/-- A staged line parameter: its active value and its staged value (R102). -/
structure Staged (α : Type) where
  active : α
  staged : Option α
  deriving DecidableEq, Repr

/-- The Line Arbiter (R92); the coupler holders are read from the contexts. -/
structure Arbiter where
  freeA : Option Boundary
  freeB : Option Boundary
  freeC : Option Boundary
  reservation : Option (Boundary × Seq)
  lineMask : Nat
  slotHc : Staged Nat
  pipeline : Staged Bool
  guard : Staged Nat
  deriving DecidableEq, Repr

/-! ## Refresh Controller (R123) -/

/-- REFRESH_MODE. -/
inductive RefreshMode where
  | auto | external
  deriving DecidableEq, Repr

/-- REFRESH_KIND. -/
inductive RefreshKind where
  | reassert | scrub
  deriving DecidableEq, Repr

/-- The Refresh Controller (R123), with the level of REFRESH_BACKLOG that it keeps (R140). -/
structure Refresh where
  mode : RefreshMode
  interval : Nat
  kind : RefreshKind
  priority : Nat
  limit : Nat
  timer : Uptime
  backlog : Nat
  missed : Nat
  pointer : Nat
  inFlight : Option Nat
  backlogLevel : Bool
  deriving DecidableEq, Repr

/-! ## Timebase and Plan Unit (R141, R144) -/

/-- A position of the feeder clock: a day 0..65535 and a second of the day 0..86399 (R141). -/
structure Clock where
  day : Nat
  second : Nat
  deriving DecidableEq, Repr

/-- The Timebase (R141); no clock is UNSET. `checkDue` says that the due check of R142 is owed (log entry 3). -/
structure Timebase where
  uptime : Uptime
  clock : Option Clock
  checkDue : Bool
  deriving DecidableEq, Repr

/-- The target of a plan entry (R144). -/
inductive PlanTarget where
  | endpoint (a : Addr)
  | group (g : Group)
  | range (segment : Segment) (start : Byte) (count : Nat)
  deriving DecidableEq, Repr

/-- The action of a plan entry (R144). -/
inductive PlanAction where
  | set (t : Tariff)
  | override (t : Tariff) (minutes : Nat)
  | endOverride
  deriving DecidableEq, Repr

/-- A plan entry (R144). -/
structure PlanEntry where
  id : Nat
  due : Clock
  daily : Bool
  target : PlanTarget
  action : PlanAction
  priority : Nat
  deriving DecidableEq, Repr

/-! ## Notice Controller (R162, R164, R169) -/

/-- A notice line (R164): `edge` is the mode EDGE, else LEVEL. -/
structure NoticeLine where
  masked : Bool
  edge : Bool
  tag : Byte
  awaiting : Bool
  deriving DecidableEq, Repr

/-- A notice of the outbound FIFO (R169). -/
structure Notice where
  line : Line
  tag : Byte
  deriving DecidableEq, Repr

/-! ## Link Interface (R172 to R178) -/

/-- The state of the receive framer (R173). -/
inductive Framer where
  | hunting | receiving | discarding
  deriving DecidableEq, Repr

/-- A frame complete in the waiting-frame buffer: one whose LEN was above 240, or one with its parts (R173). -/
inductive RxFrame where
  | badLength
  | frame (kind : Byte) (payload : List Byte) (crc : BitVec 16)
  deriving DecidableEq, Repr

/-- The waiting-frame buffer (R174). -/
inductive Buffer where
  | free | filling
  | holding (f : RxFrame)
  deriving DecidableEq, Repr

/-- A frame the part sends: its KIND and payload (R172). -/
structure LinkFrame where
  kind : Byte
  payload : List Byte
  deriving DecidableEq, Repr

/-- The Link Interface (R172 to R178). A frame is in hand exactly while a reply waits (log entry 19). -/
structure Link where
  framer : Framer
  buffer : Buffer
  ready : Bool
  replies : List LinkFrame
  sending : Option LinkFrame
  strap : BitVec 2
  deriving DecidableEq, Repr

/-- The eleven counters of R180. -/
structure Counters where
  garbled : Nat
  silent : Nat
  authFail : Nat
  stale : Nat
  stranded : Nat
  queueFull : Nat
  planMiss : Nat
  merged : Nat
  linkCrc : Nat
  linkGap : Nat
  linkOverrun : Nat
  deriving DecidableEq, Repr

/-- The whole part, and the queue of the commands that wait for it. -/
structure State where
  pending : List Instr
  mains : Mains
  timebase : Timebase
  transmitter : Option Sending
  receivers : Receivers
  table : List Record
  windows : Vector Window 8
  groups : Vector GroupRecord 32
  urgent : List Entry
  normal : List Entry
  arbiter : Arbiter
  contexts : List Context
  lineSeq : Seq
  attempts : Nat
  refresh : Refresh
  plan : List PlanEntry
  counts : Vector Nat 48
  sourceMap : Vector (Option Line) 50
  lines : Vector NoticeLine 20
  fifo : List Notice
  link : Link
  segment : Segment
  defaultCoupler : Option Coupler
  counters : Counters
  deriving DecidableEq, Repr

/-- Why a step could stop with a fault. No rule of the manual stops the part, so there is no reason. -/
inductive Fault where
  deriving DecidableEq, Repr

/-- Why a command has no meaning. -/
inductive Refusal where
  /-- Raised by an arm of exec whose row has no meaning yet (none is left); safe: nothing is claimed. -/
  | notModelled (mnemonic : String)
  deriving DecidableEq, Repr

/-- The default source-to-line map (R162): kinds in order to lines 0 to 5, MAINS_DOWN to 18, REFRESH_BACKLOG
to 19. -/
def State.defaultMap : Vector (Option Line) 50 :=
  Vector.ofFn fun i =>
    if i.val < 48 then some (Fin.ofNat 20 (i.val / 8)) else some (Fin.ofNat 20 (i.val - 30))

/-- The notice lines at reset (R164): masked, LEVEL, tag equal to the line number, not awaiting. -/
def State.defaultLines : Vector NoticeLine 20 :=
  Vector.ofFn fun i => { masked := true, edge := false, tag := BitVec.ofNat 8 i.val, awaiting := false }

/-- Every counter at 0 (R180). -/
def Counters.zero : Counters :=
  { garbled := 0, silent := 0, authFail := 0, stale := 0, stranded := 0, queueFull := 0, planMiss := 0,
    merged := 0, linkCrc := 0, linkGap := 0, linkOverrun := 0 }

/-- The part right after power-on or the release of RESETN (R178 and the reset clause of every block's rule), the
strap pins unconnected (log entry 25), no command waiting. -/
def State.reset : State :=
  { pending := []
    mains := { line := .acquiring, freq := none, good := 0, runSum := 0, missing := 0, returnFlag := false,
               grid := none, refTime := 0, boundaryDue := false }
    timebase := { uptime := 0, clock := none, checkDue := false }
    transmitter := none
    receivers := { a := .quiet, b := .quiet, c := .quiet }
    table := []
    windows := Vector.replicate 8 { base := 0, limit := 0, coupler := .a, enabled := false }
    groups := Vector.replicate 32 { tariff := none, repeats := 1 }
    urgent := []
    normal := []
    arbiter := { freeA := none, freeB := none, freeC := none, reservation := none, lineMask := 0,
                 slotHc := { active := 12, staged := none },
                 pipeline := { active := false, staged := none },
                 guard := { active := 1, staged := none } }
    contexts := []
    lineSeq := 0
    attempts := 3
    refresh := { mode := .auto, interval := 20, kind := .reassert, priority := 3, limit := 64, timer := 20,
                 backlog := 0, missed := 0, pointer := 0, inFlight := none, backlogLevel := false }
    plan := []
    counts := Vector.replicate 48 0
    sourceMap := State.defaultMap
    lines := State.defaultLines
    fifo := []
    link := { framer := .hunting, buffer := .free, ready := true, replies := [], sending := none,
              strap := 1 }
    segment := 0
    defaultCoupler := some .bridged
    counters := Counters.zero }

end Sys2Proof.Machine
end

