-- ==== Sys2Proof/Machine/Ops.lean ====
section
/-! DEFINITION. The named operations over the table, the queues, the contexts and the counters, and the result
codes. A block has no exception entry and no addressed memory: there is none of either here. -/

namespace Sys2Proof.Machine

/-! ## Numbers -/

/-- A 16-bit counter rises by 1 and saturates at 65535 (R180). -/
def bump (n : Nat) : Nat := min (n + 1) 65535

/-- B, M rise by n and stop at 1023 (R125, R126). -/
def addTo1023 (n k : Nat) : Nat := min (n + k) 1023

/-- The failure count rises by 1, saturating at 15 (R113). -/
def bumpFailures (n : Nat) : Nat := min (n + 1) 15

/-! ## Couplers -/

/-- The phases in the order A, B, C (R23). -/
def allPhases : List Phase := [.a, .b, .c]

/-- The phases a coupler needs: BRIDGED needs all three (R95). -/
def Coupler.phases : Coupler → List Phase
  | .single p => [p]
  | .bridged => allPhases

/-! ## The Endpoint Table (R25) -/

/-- The record with the address, if it is in the table. -/
def State.lookup (s : State) (a : Addr) : Option Record := s.table.find? fun r => r.addr == a

/-- Rewrites the record with the address, for a change that neither sets nor clears a condition flag. -/
def State.updRecord (s : State) (a : Addr) (f : Record → Record) : State :=
  { s with table := s.table.map fun r => if r.addr = a then f r else r }

/-- Rewrites every record, for a change that neither sets nor clears a condition flag. -/
def State.updAll (s : State) (f : Record → Record) : State := { s with table := s.table.map f }

/-- The addresses of the records in slot-index order. -/
def State.addrs (s : State) : List Addr := s.table.map (·.addr)

/-- The pin count: the number of records whose pinned flag is set (R25). -/
def State.pinCount (s : State) : Nat := s.table.countP (·.pinned)

/-- The lowest number from `n` on that the strictly rising list does not hold: the lowest free slot (R30). -/
def lowestFree (n : Nat) : List Nat → Nat
  | [] => n
  | x :: xs => if x = n then lowestFree (n + 1) xs else n

/-- Puts a record into the table at its slot, keeping slot-index order. -/
def insertRecord (r : Record) : List Record → List Record
  | [] => [r]
  | x :: xs => if r.slot < x.slot then r :: x :: xs else x :: insertRecord r xs

/-- The list a SET line frame for the record carries: the intended list, or none if it is pinned (R27). -/
def Record.effectiveList (r : Record) : List Group := if r.pinned then [] else r.intended

/-- Two group lists are equal as sets. -/
def sameGroups (xs ys : List Group) : Bool := xs.all (ys.contains ·) && ys.all (xs.contains ·)

/-- Membership is confirmed: the confirmed list is present and equals the effective list as a set (R27). -/
def Record.membershipConfirmed (r : Record) : Bool :=
  match r.confirmed with
  | none => false
  | some l => sameGroups l r.effectiveList

/-- The confirmed list is present and contains the group (R79). -/
def Record.stores (r : Record) (g : Group) : Bool :=
  match r.confirmed with
  | none => false
  | some l => l.contains g

/-- Gives a PENDING record its cover (R45). -/
def Record.covered (r : Record) (c : Cover) : Record := { r with image := .pending c }

/-- The record is PENDING, with any cover. -/
def Record.isPending (r : Record) : Bool :=
  match r.image with
  | .pending _ => true
  | .none | .unknown | .confirmed | .shared => false

/-! ## Delivery Queues (R85 to R89) -/

/-- Priority 5..7 chooses the urgent queue, 1..4 the normal queue (R85). -/
def queueFor (priority : Nat) : QueueId := if 5 ≤ priority then .urgent else .normal

/-- 32 entries in the urgent queue, 128 in the normal queue (R85). -/
def QueueId.capacity : QueueId → Nat
  | .urgent => 32
  | .normal => 128

/-- The entries of a queue, head first. -/
def State.queue (s : State) : QueueId → List Entry
  | .urgent => s.urgent
  | .normal => s.normal

/-- The queue holds fewer entries than its full number (R87). -/
def State.hasRoom (s : State) (q : QueueId) : Bool := decide ((s.queue q).length < q.capacity)

/-- Places an entry at the tail of a queue (R87); the caller has looked for room. -/
def State.insertEntry (s : State) (q : QueueId) (e : Entry) : State :=
  match q with
  | .urgent => { s with urgent := s.urgent ++ [e] }
  | .normal => { s with normal := s.normal ++ [e] }

/-- The endpoint an entry's work is for; none for a GROUP entry (R86). -/
def Work.target? : Work → Option Addr
  | .deliver a => some a
  | .poll a => some a
  | .passDeliver a _ => some a
  | .group _ => none

/-- The entry belongs to the record with the address. -/
def Entry.isFor (a : Addr) (e : Entry) : Bool := e.work.target? == some a

/-- The entry is the GROUP entry of the group. -/
def Entry.isOfGroup (g : Group) (e : Entry) : Bool := e.work == .group g

/-- The entry is a GROUP entry. -/
def Entry.isGroup (e : Entry) : Bool := e.work.target?.isNone

/-- The entry is a DELIVER entry. -/
def Entry.isDeliver (e : Entry) : Bool :=
  match e.work with
  | .deliver _ => true
  | .poll _ | .passDeliver _ _ | .group _ => false

/-- Takes the entries that a test picks out of both queues; those behind close up (R88). -/
def State.dropEntries (s : State) (p : Entry → Bool) : State :=
  { s with urgent := s.urgent.filter (fun e => !p e), normal := s.normal.filter (fun e => !p e) }

/-- The first entry that a test picks, with the queue it stands in. -/
def State.findEntry (s : State) (p : Entry → Bool) : Option (QueueId × Entry) :=
  match s.urgent.find? p with
  | some e => some (.urgent, e)
  | none => (s.normal.find? p).map fun e => (.normal, e)

/-- The record's own-entry reference: its entry while it is in a queue (R47). -/
def State.ownEntry (s : State) (a : Addr) : Option (QueueId × Entry) := s.findEntry (Entry.isFor a)

/-- The group's queued-entry reference (R68). -/
def State.groupEntry (s : State) (g : Group) : Option (QueueId × Entry) := s.findEntry (Entry.isOfGroup g)

/-- The move of R51 and R72 (R88): an entry in the normal queue goes to the tail of the urgent queue with the
request's priority and origin when that priority is higher and 5..7 and the urgent queue has room; else it stays
as it was. -/
def State.raiseEntry (s : State) (p : Entry → Bool) (priority : Nat) (origin : Origin) : State :=
  match s.normal.find? p with
  | none => s
  | some e =>
    if e.priority < priority ∧ 5 ≤ priority ∧ s.hasRoom .urgent = true then
      { s with
        normal := s.normal.filter (fun x => !p x)
        urgent := s.urgent ++ [{ e with priority := priority, origin := origin }] }
    else s

/-! ## Counters (R180) -/

/-- QUEUE_FULL rises by 1. -/
def State.countQueueFull (s : State) : State :=
  { s with counters := { s.counters with queueFull := bump s.counters.queueFull } }

/-- STRANDED rises by 1. -/
def State.countStranded (s : State) : State :=
  { s with counters := { s.counters with stranded := bump s.counters.stranded } }

/-- PLAN_MISS rises by 1. -/
def State.countPlanMiss (s : State) : State :=
  { s with counters := { s.counters with planMiss := bump s.counters.planMiss } }

/-- MERGED rises by 1. -/
def State.countMerged (s : State) : State :=
  { s with counters := { s.counters with merged := bump s.counters.merged } }

/-- STALE rises by 1. -/
def State.countStale (s : State) : State :=
  { s with counters := { s.counters with stale := bump s.counters.stale } }

/-- LINK_CRC rises by 1. -/
def State.countLinkCrc (s : State) : State :=
  { s with counters := { s.counters with linkCrc := bump s.counters.linkCrc } }

/-- LINK_GAP rises by 1. -/
def State.countLinkGap (s : State) : State :=
  { s with counters := { s.counters with linkGap := bump s.counters.linkGap } }

/-- LINK_OVERRUN rises by 1. -/
def State.countLinkOverrun (s : State) : State :=
  { s with counters := { s.counters with linkOverrun := bump s.counters.linkOverrun } }

/-! ## Contexts (R105) -/

/-- The endpoint target of a transaction; none for a group frame. -/
def Job.target? : Job → Option Addr
  | .set a _ _ _ => some a
  | .poll a _ => some a
  | .scrub a _ _ => some a
  | .passSet a _ _ => some a
  | .group _ _ _ => none

/-- The group of a group frame. -/
def Job.group? : Job → Option Group
  | .group g _ _ => some g
  | .set _ _ _ _ | .poll _ _ | .scrub _ _ _ | .passSet _ _ _ => none

/-- The transaction is a scrub, in either part (R98). -/
def Job.isScrub : Job → Bool
  | .scrub _ _ _ => true
  | .set _ _ _ _ | .poll _ _ | .passSet _ _ _ | .group _ _ _ => false

/-- The transaction is a scrub in its POLL part (R133). -/
def Job.inPollPart : Job → Bool
  | .scrub _ _ none => true
  | .scrub _ _ (some _) | .set _ _ _ _ | .poll _ _ | .passSet _ _ _ | .group _ _ _ => false

/-- The list of the SET frame the transaction has sent, if it sent one: a SET, a PASS_SET, or a scrub in its
extension (R55, R67). -/
def Job.sentList : Job → Option (List Group)
  | .set _ _ _ l => some l
  | .passSet _ _ l => some l
  | .scrub _ _ (some x) => some x.list
  | .scrub _ _ none => none
  | .poll _ _ => none
  | .group _ _ _ => none

/-- The length of the transaction's pattern in slots: 2 + 2h for an individual transaction and for each part of a
scrub (R19, R20), 1 + r for a group frame (R21). -/
def Context.length (c : Context) : Nat :=
  match c.job with
  | .group _ _ r => 1 + r.val
  | .set _ _ _ _ | .poll _ _ | .scrub _ _ _ | .passSet _ _ _ => 2 + 2 * c.route.length

/-- The context of the individual or scrub transaction in flight for the address. -/
def State.contextOf (s : State) (a : Addr) : Option Context :=
  s.contexts.find? fun c => c.job.target? == some a

/-- The frame in flight of a group (R68). -/
def State.frameOf (s : State) (g : Group) : Option Context :=
  s.contexts.find? fun c => c.job.group? == some g

/-- The frame state of a group (R74). -/
def State.frameState (s : State) (g : Group) : FrameState :=
  match (s.frameOf g).isSome, (s.groupEntry g).isSome with
  | false, false => .idle
  | false, true => .queued
  | true, false => .inFlight
  | true, true => .inFlightQueued

/-- The boundary number of the slot in progress; 0 while there is no grid. -/
def State.boundary (s : State) : Boundary :=
  match s.mains.grid with
  | none => 0
  | some g => g.boundary

/-! ## Result codes (R179) -/

/-- The result codes of R179. -/
inductive ResultCode where
  | ok | unchanged | queued | queuedAfterFlight | heldForRefresh | savedUnderOverride | staged | noMembers
  | queueFull | noSuchEndpoint | alreadyEnrolled | tableFull | pinLimit | noRoute | badRoute | badValue
  | inFlight | entryExists | notPending | planFull | noSuchEntry | frameError | unknownRequest | length
  deriving DecidableEq, Repr

/-- The value of a result code (R179). -/
def ResultCode.byte : ResultCode → Byte
  | .ok => 0x00 | .unchanged => 0x01 | .queued => 0x02 | .queuedAfterFlight => 0x03
  | .heldForRefresh => 0x04 | .savedUnderOverride => 0x05 | .staged => 0x06 | .noMembers => 0x07
  | .queueFull => 0x08 | .noSuchEndpoint => 0x09 | .alreadyEnrolled => 0x0A | .tableFull => 0x0B
  | .pinLimit => 0x0C | .noRoute => 0x0D | .badRoute => 0x0E | .badValue => 0x0F
  | .inFlight => 0x10 | .entryExists => 0x11 | .notPending => 0x12 | .planFull => 0x13
  | .noSuchEntry => 0x14 | .frameError => 0x15 | .unknownRequest => 0x16 | .length => 0x17

/-- The outcome of carrying out a request: the state it leaves, its result code and its reply content (R176). -/
structure Answer where
  state : State
  code : ResultCode
  content : List Byte
  deriving DecidableEq, Repr

/-- A refused request: the code alone, nothing changed (R176). -/
def refuse (s : State) (code : ResultCode) : Answer := { state := s, code := code, content := [] }

/-- Puts the reply to a request of this KIND behind the replies that wait (R172, R176). -/
def Answer.reply (a : Answer) (kind : Byte) : State :=
  { a.state with
    link := { a.state.link with
      replies := a.state.link.replies ++ [{ kind := kind ||| 0x80, payload := a.code.byte :: a.content }] } }

end Sys2Proof.Machine
end

