-- ==== Sys2Proof/Machine/Operands.lean ====
section
/-! DEFINITION. The operand forms of the host link: the encodings of R183, read once, here. -/

namespace Sys2Proof.Machine

/-! ## One-byte fields -/

/-- A flag is 0 or 1 (R183). -/
def flagOk (b : Byte) : Bool := b == 0 || b == 1

/-- A flag field that is set. -/
def flagSet (b : Byte) : Bool := b == 1

/-- A tariff code 0..15. -/
def tariffOf (b : Byte) : Option Tariff := if b.toNat < 16 then some (b.setWidth 4) else none

/-- An optional tariff is absent as 0xFF (R183). -/
def optTariffOk (b : Byte) : Bool := b == 0xFF || (tariffOf b).isSome

/-- A priority 1..7. -/
def priorityOf (b : Byte) : Option Nat := if 1 ≤ b.toNat ∧ b.toNat ≤ 7 then some b.toNat else none

/-- A group number 0..31. -/
def groupOf (b : Byte) : Option Group := if h : b.toNat < 32 then some ⟨b.toNat, h⟩ else none

/-- A notice group 0..7. -/
def noticeGroupOf (b : Byte) : Option NoticeGroup := if h : b.toNat < 8 then some ⟨b.toNat, h⟩ else none

/-- A notice line 0..19. -/
def lineOf (b : Byte) : Option Line := if h : b.toNat < 20 then some ⟨b.toNat, h⟩ else none

/-- A segment 0..7. -/
def segmentOf (b : Byte) : Option Segment := if b.toNat < 8 then some (b.setWidth 3) else none

/-- A segment, 0xFF standing for the default segment (R43, R179). -/
def segmentOrDefault (dflt : Segment) (b : Byte) : Option Segment :=
  if b = 0xFF then some dflt else segmentOf b

/-- Coupler 0 A, 1 B, 2 C (R183). -/
def phaseOf (b : Byte) : Option Phase :=
  if b = 0 then some .a else if b = 1 then some .b else if b = 2 then some .c else none

/-- Coupler 0 A, 1 B, 2 C, 3 BRIDGED (R183). -/
def couplerOf (b : Byte) : Option Coupler :=
  if b = 3 then some .bridged else (phaseOf b).map .single

/-- Class 0 IMMEDIATE, 1 DEFERRED, 2 PASS (R183). -/
def classOf (b : Byte) : Option EndpointClass :=
  if b = 0 then some .immediate else if b = 1 then some .deferred else if b = 2 then some .pass else none

/-! ## Addresses, routes and group lists -/

/-- An address field (R183): with bit 15 set the full form, bits 14..11 zero; with bit 15 clear the short form, bits
14..8 zero, completed with the default segment (R24). None for any other value. -/
def addrOf (dflt : Segment) (f : Half) : Option Addr :=
  if f.toNat / 2048 = 16 then some (f.setWidth 11)
  else if f.toNat < 256 then some (dflt ++ f.setWidth 8)
  else none

/-- What a route field says: a route of 0..2 hops, one of the two codes, a hop count outside the encoding, or a
used address field that breaks its own encoding (R183). -/
inductive RouteRead where
  | route (hops : List Addr)
  | codeFE | codeFF | badCount | badAddress
  deriving DecidableEq, Repr

/-- Reads a route field; address fields that the count leaves unused are ignored (R183). A hop count outside the encoding
uses neither of them, so neither is judged beside it: log entry 44. -/
def readRoute (dflt : Segment) (f : RouteField) : RouteRead :=
  if f.count = 0 then .route []
  else if f.count = 1 then
    match addrOf dflt f.hop1 with
    | some x => .route [x]
    | none => .badAddress
  else if f.count = 2 then
    match addrOf dflt f.hop1, addrOf dflt f.hop2 with
    | some x, some y => .route [x, y]
    | _, _ => .badAddress
  else if f.count = 0xFE then .codeFE
  else if f.count = 0xFF then .codeFF
  else .badCount

/-- The address fields a route field uses keep their encoding. -/
def RouteRead.addressesOk : RouteRead → Bool
  | .badAddress => false
  | .route _ | .codeFE | .codeFF | .badCount => true

/-- The route a route field gives, none for a code or a bad field. -/
def RouteRead.hops? : RouteRead → Option (List Addr)
  | .route l => some l
  | .codeFE | .codeFF | .badCount | .badAddress => none

/-- A route a record may hold: it does not name the target and names no address twice (R29). -/
def routeAllowed (target : Addr) (route : List Addr) : Bool := !route.contains target && decide route.Nodup

/-- The same for an optional route. -/
def optRouteAllowed (target : Addr) (route : Option (List Addr)) : Bool :=
  match route with
  | none => true
  | some l => routeAllowed target l

/-- The group bytes a group list field uses (R183). -/
def usedGroups (f : GroupField) : List Byte := [f.g0, f.g1, f.g2, f.g3].take f.count.toNat

/-- The groups of a group list field, kept and sent in the order in which the field gives them (the list is a set, and
no rule orders it: log entry 42). -/
def groupsOf (f : GroupField) : List Group := (usedGroups f).filterMap groupOf

/-- Every group of the field is 0..31 and none is repeated (R29). -/
def groupsInRange (f : GroupField) : Bool := (usedGroups f).all (fun b => (groupOf b).isSome) && decide (groupsOf f).Nodup

end Sys2Proof.Machine
end

