-- ==== Sys2Proof/Machine/Flags.lean ====
section
/-! DEFINITION. The condition flags of a record, the source counts they move, the levels of sources and lines, and
the tests that queue notices (R158 to R170). -/

namespace Sys2Proof.Machine

/-- The six condition kinds, in the order of the default map (R158, R162). -/
inductive Cond where
  | restored | relayFault | localOverride | holdExpired | lost | mismatch
  deriving DecidableEq, Repr

/-- The place of a kind in the order of the default map (R162, R183). -/
def Cond.index : Cond → Fin 6
  | .restored => 0 | .relayFault => 1 | .localOverride => 2 | .holdExpired => 3 | .lost => 4 | .mismatch => 5

/-- The six kinds in order. -/
def allConds : List Cond := [.restored, .relayFault, .localOverride, .holdExpired, .lost, .mismatch]

/-- Whether a flag of the record is asserted; LOST is set exactly while its reach is LOST (R158). -/
def Record.flag (r : Record) : Cond → Bool
  | .restored => r.restored
  | .relayFault => r.relayFault
  | .localOverride => r.localOverride
  | .holdExpired => r.holdExpired
  | .lost => r.reach == .lost
  | .mismatch => r.mismatch

/-- The number of the endpoint source kind/group among the 48 counts (R160). -/
def countIndex (k : Cond) (n : NoticeGroup) : Fin 48 := ⟨k.index.val * 8 + n.val, by omega⟩

/-- A rise raises the count of kind/group by 1 (R160). -/
def raiseCount (counts : Vector Nat 48) (k : Cond) (n : NoticeGroup) : Vector Nat 48 :=
  counts.set (countIndex k n) (counts[countIndex k n] + 1)

/-- A fall lowers it by 1 (R160). -/
def lowerCount (counts : Vector Nat 48) (k : Cond) (n : NoticeGroup) : Vector Nat 48 :=
  counts.set (countIndex k n) (counts[countIndex k n] - 1)

/-- What one kind of condition contributes to the change set between a record before and after a rule: nothing
when the flag and its notice group stand as they did, else a fall where it was asserted and a rise where it is. -/
def moveCount (before after : Record) (counts : Vector Nat 48) (k : Cond) : Vector Nat 48 :=
  if before.flag k = after.flag k ∧ before.noticeGroup = after.noticeGroup then counts
  else
    let lowered := if before.flag k then lowerCount counts k before.noticeGroup else counts
    if after.flag k then raiseCount lowered k after.noticeGroup else lowered

/-- The whole change set of one rule applied to one record (R159, R36). -/
def moveCounts (before after : Record) (counts : Vector Nat 48) : Vector Nat 48 :=
  allConds.foldl (moveCount before after) counts

/-! ## Levels (R160 to R162) -/

/-- The level of a source: an endpoint source is true while its count is above 0, MAINS_DOWN while the return flag
is set, REFRESH_BACKLOG as the Refresh Controller keeps it. -/
def State.sourceLevel (s : State) (i : SourceId) : Bool :=
  if h : i.val < 48 then decide (0 < s.counts[i.val])
  else if i.val = 48 then s.mains.returnFlag else s.refresh.backlogLevel

/-- The level of a line: true while any source mapped to it is true (R162). -/
def State.lineLevel (s : State) (l : Line) : Bool :=
  (List.finRange 50).any fun i => s.sourceMap[i] == some l && s.sourceLevel i

/-- A notice for the line waits in the FIFO (R165, R167). -/
def State.noticeWaiting (s : State) (l : Line) : Bool := s.fifo.any fun n => n.line == l

/-- Writes one notice line. -/
def State.setLine (s : State) (l : Line) (f : NoticeLine → NoticeLine) : State :=
  { s with lines := s.lines.set l (f s.lines[l]) }

/-- Places a notice of the line at the tail of the FIFO, with the line's present tag (R169). -/
def State.queueNotice (s : State) (l : Line) : State :=
  { s with fifo := s.fifo ++ [{ line := l, tag := s.lines[l].tag }] }

/-- The test of a LEVEL-mode line (R165). -/
def State.testLine (s : State) (l : Line) : State :=
  if s.lines[l].masked = true ∨ s.lineLevel l = false ∨ s.lines[l].awaiting = true then s
  else
    let marked := s.setLine l fun x => { x with awaiting := true }
    if marked.noticeWaiting l then marked else marked.queueNotice l

/-- The rise of an EDGE-mode line (R167): lost while masked, merged into a waiting notice, else a notice. -/
def State.riseEdge (s : State) (l : Line) : State :=
  if s.lines[l].masked then s
  else if s.noticeWaiting l then s.countMerged
  else s.queueNotice l

/-- A line has risen: by R165 in LEVEL mode, by R167 in EDGE mode (R162). -/
def State.riseLine (s : State) (l : Line) : State :=
  if s.lines[l].edge then s.riseEdge l else s.testLine l

/-- The Notice Controller compares every line's level before and after a change and takes each rise, in
line-number order (R162; the order among lines is log entry 11). -/
def noticeChange (before after : State) : State :=
  (List.finRange 20).foldl
    (fun s l => if before.lineLevel l = false ∧ after.lineLevel l = true then s.riseLine l else s) after

/-- Rewrites a record by a rule that may set or clear condition flags or move its notice group, and hands the one
change set to the Condition Tracker once the rule is applied (R159, R160). -/
def State.changeRecord (s : State) (a : Addr) (f : Record → Record) : State :=
  match s.lookup a with
  | none => s
  | some r =>
    let after := { s.updRecord a f with counts := moveCounts r (f r) s.counts }
    if after.counts = s.counts then after else noticeChange s after

/-- The record with every condition clear: what RETIRE leaves of its conditions for the tracker (R37). -/
def Record.withoutConditions (r : Record) : Record :=
  { r with restored := false, relayFault := false, localOverride := false, holdExpired := false,
           mismatch := false, reach := .reachable }

/-- Tests every LEVEL-mode line in line-number order (R170). -/
def State.testLevelLines (s : State) : State :=
  (List.finRange 20).foldl (fun s l => if s.lines[l].edge then s else s.testLine l) s

end Sys2Proof.Machine
end

