-- ==== Sys2Proof/Machine/LineFrames.lean ====
section
/-! DEFINITION. Line frames: the CRC of R172, the layouts of R185, what a receive path makes of what it hears (R22)
and the outcome of an attempt (R23). -/

namespace Sys2Proof.Machine

/-! ## The CRC (R172) -/

/-- One bit of the CRC with the generator x^16 + x^12 + x^5 + 1. -/
def crcBit (c : BitVec 16) : BitVec 16 := if c.msb then (c <<< 1) ^^^ 0x1021 else c <<< 1

/-- One byte of the CRC, most significant bit first. -/
def crcByte (c : BitVec 16) (b : Byte) : BitVec 16 :=
  crcBit (crcBit (crcBit (crcBit (crcBit (crcBit (crcBit (crcBit (c ^^^ (b ++ (0 : BitVec 8))))))))))

/-- The CRC of R172 over a list of bytes: initial value 0xFFFF, no final inversion. -/
def crc16 (bytes : List Byte) : BitVec 16 := bytes.foldl crcByte 0xFFFF

/-- Two bytes, most significant first (R183). -/
def bytes2 (h : BitVec 16) : List Byte := [h.extractLsb' 8 8, h.extractLsb' 0 8]

/-! ## Downlink frames (R185) -/

/-- The first byte of a line frame: kind in bits 7..6, sequence in bits 5..0. -/
def frameHead (kind : BitVec 2) (seq : Seq) : Byte := kind ++ seq

/-- Closes a frame with its line check: the CRC of every preceding byte. -/
def closeFrame (bytes : List Byte) : List Byte := bytes ++ bytes2 (crc16 bytes)

/-- The two bytes of an address on the line: bits 10..0 (R185), the bits above 0 (log entry 39). -/
def lineAddr (a : Addr) : List Byte := bytes2 (a.setWidth 16)

/-- The bytes of a SET frame (R12, R185), the bits it does not name 0 (log entry 39). -/
def setFrame (seq : Seq) (target : Addr) (route : List Addr) (tariff : Tariff) (list : List Group) : List Byte :=
  closeFrame
    (frameHead 0 seq :: lineAddr target ++ [BitVec.ofNat 8 (list.length * 4 + route.length)]
      ++ route.flatMap lineAddr ++ [tariff.setWidth 8] ++ list.map fun g => BitVec.ofNat 8 g.val)

/-- The bytes of a POLL frame (R12, R185). -/
def pollFrame (seq : Seq) (target : Addr) (route : List Addr) : List Byte :=
  closeFrame
    (frameHead 1 seq :: lineAddr target ++ [BitVec.ofNat 8 route.length] ++ route.flatMap lineAddr)

/-- The bytes of a GROUP frame: repeat index in bits 7..6 of the group byte (R13, R185), the bits it
does not name 0 (log entry 39). -/
def groupFrame (seq : Seq) (g : Group) (tariff : Tariff) (index : Nat) : List Byte :=
  closeFrame [frameHead 2 seq, BitVec.ofNat 8 (index * 64 + g.val), tariff.setWidth 8]

/-- The downlink frame a transaction sends at the start of its first slot, or at the start of its extension. -/
def Context.outboundFrame (c : Context) : List Byte :=
  match c.job with
  | .set a _ t l => setFrame c.seq a c.route t l
  | .poll a _ => pollFrame c.seq a c.route
  | .scrub a _ none => pollFrame c.seq a c.route
  | .scrub a _ (some x) => setFrame c.seq a c.route x.tariff x.list
  | .passSet a t l => setFrame c.seq a c.route t l
  | .group g t _ => groupFrame c.seq g t 0

/-! ## Reading what a path hears (R22, R185) -/

/-- What a receive path makes of the bytes it takes: a frame that fails its line check, an ACK frame, or another
good frame. -/
inductive LineRead where
  | bad
  | ack (frame : AckFrame)
  | other
  deriving DecidableEq, Repr

/-- The line check closes the frame: the last two bytes are the CRC of all before them. -/
def lineCheckGood (bytes : List Byte) : Bool :=
  decide (3 ≤ bytes.length) &&
    bytes.drop (bytes.length - 2) == bytes2 (crc16 (bytes.take (bytes.length - 2)))

/-- The length a downlink frame must have for its kind and its counts (R185). -/
def downlinkLength (kind : BitVec 2) (countByte : Byte) : Nat :=
  let hops := countByte.toNat % 4
  let groups := countByte.toNat / 4 % 8
  if kind = 0 then 7 + 2 * hops + groups else if kind = 1 then 6 + 2 * hops else 5

/-- Reads a line frame (R185). -/
def readLine (bytes : List Byte) : LineRead :=
  if lineCheckGood bytes = false then .bad
  else
    match bytes with
    | head :: b1 :: b2 :: b3 :: rest =>
      let kind : BitVec 2 := head.extractLsb' 6 2
      if kind = 3 then
        match rest with
        | [b4, _, _] =>
          .ack { seq := head.extractLsb' 0 6, addr := b1 ++ b2, check := b3.extractLsb' 4 4,
                 held := b3.extractLsb' 0 4, restored := b4.getLsbD 7, relayFault := b4.getLsbD 6,
                 localOverride := b4.getLsbD 5, holdExpired := b4.getLsbD 4, quality := b4.extractLsb' 0 4 }
        | _ => .bad
      else if bytes.length = downlinkLength kind b3 then .other
      else .bad
    | _ => .bad

/-- The receive path of a phase. -/
def Receivers.path (r : Receivers) : Phase → PathHeard
  | .a => r.a
  | .b => r.b
  | .c => r.c

/-- Writes one receive path. -/
def Receivers.setPath (r : Receivers) (p : Phase) (h : PathHeard) : Receivers :=
  match p with
  | .a => { r with a := h }
  | .b => { r with b := h }
  | .c => { r with c := h }

/-- All three paths quiet, as a listening slot begins. -/
def Receivers.quiet : Receivers := { a := .quiet, b := .quiet, c := .quiet }

/-- The ACK frame answers a transaction: it has its sequence and its target address (R22). -/
def AckFrame.answers (f : AckFrame) (seq : Seq) (target : Addr) : Bool :=
  f.seq == seq && f.addr == target.setWidth 16

/-- A path's classification for one transaction, STALE already taken as SILENT (R22). -/
inductive Heard where
  | ack (frame : AckFrame) (quality : Quality)
  | authFail | garbled | silent
  deriving DecidableEq, Repr

/-- Classifies a path for the transaction of a sequence and a target whose record holds the check value (R22). -/
def classify (seq : Seq) (target : Addr) (check : CheckValue) : PathHeard → Heard
  | .quiet => .silent
  | .energy => .garbled
  | .other => .silent
  | .ack f q => if f.answers seq target then (if f.check = check then .ack f q else .authFail) else .silent

/-- The combined result of a listening slot: an ACK with its content, heard coupler and quality, or a failure
alone (R23). -/
inductive LineResult where
  | ack (frame : AckFrame) (heard : Phase) (quality : Quality)
  | authFail | garbled | silent
  deriving DecidableEq, Repr

/-- The paths that gave an ACK, in the order A, B, C. -/
def acksHeard (paths : List (Phase × Heard)) : List (Phase × AckFrame × Quality) :=
  paths.filterMap fun x =>
    match x.2 with
    | .ack f q => some (x.1, f, q)
    | .authFail | .garbled | .silent => none

/-- The ACK that counts: the highest quality; a tie goes to the transaction's own coupler, else in the order
A, B, C (R23). -/
def bestAck (own : Coupler) (acks : List (Phase × AckFrame × Quality)) : Option (Phase × AckFrame × Quality) :=
  let top := acks.foldl (fun m x => max m x.2.2.toNat) 0
  let tied := acks.filter fun x => x.2.2.toNat == top
  match tied.find? fun x => Coupler.single x.1 == own with
  | some x => some x
  | none => tied.head?

/-- The outcome of an attempt: the best result among the paths, ranked ACK, AUTH_FAIL, GARBLED, SILENT (R23). -/
def combine (own : Coupler) (paths : List (Phase × Heard)) : LineResult :=
  match bestAck own (acksHeard paths) with
  | some (p, f, q) => .ack f p q
  | none =>
    if paths.any fun x => x.2 == .authFail then .authFail
    else if paths.any fun x => x.2 == .garbled then .garbled
    else .silent

/-! ## The listening slot -/

/-- The transaction listens in the slot in progress: an individual one in its last slot (R108). -/
def Context.listening (c : Context) : Bool := c.job.target?.isSome && c.remaining == 1

/-- The contexts whose listening slot is open: none once the boundary that closes the slot has come. -/
def State.listeners (s : State) : List Context :=
  if s.mains.boundaryDue then [] else s.contexts.filter (·.listening)

/-- The ACK frame answers one of the transactions. -/
def answersOne (f : AckFrame) (cs : List Context) : Bool :=
  cs.any fun c =>
    match c.job.target? with
    | some a => f.answers c.seq a
    | none => false

/-- The result of the listening slot for a transaction, with the check value its target's record holds (R23). -/
def State.lineResult (s : State) (c : Context) (target : Addr) : LineResult :=
  match s.lookup target with
  | none => .silent
  | some r =>
    combine c.coupler (allPhases.map fun p => (p, classify c.seq target r.check (s.receivers.path p)))

/-- A path takes energy or a frame in an open listening slot: the first good frame counts, later ones are
discarded, and a frame that answers no listening transaction is STALE (R22). -/
def hearLine (p : Phase) (bytes : List Byte) (quality : Quality) (s : State) : State :=
  if s.listeners.isEmpty then s
  else
    match s.receivers.path p with
    | .ack _ _ => s
    | .other => s
    | .quiet | .energy =>
      match readLine bytes with
      | .bad => { s with receivers := s.receivers.setPath p .energy }
      | .other => { s with receivers := s.receivers.setPath p .other }.countStale
      | .ack f =>
        let taken := { s with receivers := s.receivers.setPath p (.ack f quality) }
        if answersOne f s.listeners then taken else taken.countStale

/-- LINE_FRAME_RECEIVED (R22). -/
def execLineFrameReceived (path : Phase) (bytes : List Byte) (quality : Quality) (s : State) :
    Host.Outcome State Fault Refusal :=
  .next (hearLine path bytes quality s)

end Sys2Proof.Machine
end

