-- ==== Sys2Proof/Machine/Replies.lean ====
section
/-! DEFINITION. How values are laid out in replies, notices and the ready frame (R178, R183, R184, R186), and the
bytes of a frame on the link (R172). -/

namespace Sys2Proof.Machine

/-! ## Field widths (R184) -/

/-- A field of one byte. -/
def n1 (n : Nat) : List Byte := [BitVec.ofNat 8 n]

/-- A field of two bytes. -/
def n2 (n : Nat) : List Byte := bytes2 (BitVec.ofNat 16 n)

/-- A field of three bytes. -/
def n3 (n : Nat) : List Byte := BitVec.ofNat 8 (n / 65536) :: n2 n

/-- A field of four bytes: uptime, an override end. -/
def bytes4 (u : BitVec 32) : List Byte :=
  [u.extractLsb' 24 8, u.extractLsb' 16 8, u.extractLsb' 8 8, u.extractLsb' 0 8]

/-- A flag. -/
def flagByte (b : Bool) : List Byte := if b then [1] else [0]

/-- An optional one-byte field: 0xFF when absent. -/
def opt1 (n : Option Nat) : List Byte :=
  match n with
  | some k => n1 k
  | none => [0xFF]

/-- A clock: day in two bytes and second in three; UNSET is day 0 and second 0xFFFFFF. -/
def clockBytes (c : Option Clock) : List Byte :=
  match c with
  | some c => n2 c.day ++ n3 c.second
  | none => [0, 0, 0xFF, 0xFF, 0xFF]

/-- An address in full form, as replies always give it (R183). -/
def fullAddr (a : Addr) : List Byte := bytes2 (0x8000 ||| a.setWidth 16)

/-- Fills a list up to n bytes with the bytes its count leaves unused (log entry 23). -/
def padTo (n : Nat) (bytes : List Byte) : List Byte :=
  bytes ++ (List.range (n - bytes.length)).map fun i => Config.unusedByte (bytes.length + i)

/-- A route in five bytes (R183). -/
def routeBytes (route : List Addr) : List Byte := padTo 5 (BitVec.ofNat 8 route.length :: route.flatMap fullAddr)

/-- A group list in five bytes (R183). -/
def groupListBytes (l : List Group) : List Byte :=
  padTo 5 (BitVec.ofNat 8 l.length :: l.map fun g => BitVec.ofNat 8 g.val)

/-- An absent list: count 0xFF (R186). -/
def absentList : List Byte := padTo 5 [0xFF]

/-! ## Enumerations, 0, 1, 2 … in the order the manual lists them (R184) -/

/-- A, B, C. -/
def Phase.code : Phase → Nat
  | .a => 0 | .b => 1 | .c => 2

/-- A, B, C, BRIDGED. -/
def Coupler.code : Coupler → Nat
  | .single p => Phase.code p
  | .bridged => 3

/-- WINDOW, LEARNED, FIXED. -/
def CouplerSource.code : CouplerSource → Nat
  | .window => 0 | .learned => 1 | .fixed => 2

/-- IMMEDIATE, DEFERRED, PASS. -/
def EndpointClass.code : EndpointClass → Nat
  | .immediate => 0 | .deferred => 1 | .pass => 2

/-- NONE, UNKNOWN, PENDING, CONFIRMED, SHARED (R186). -/
def Image.code : Image → Nat
  | .none => 0 | .unknown => 1 | .pending _ => 2 | .confirmed => 3 | .shared => 4

/-- The cover's kind as at offset 33 of R186: 0 none. -/
def Image.coverCode : Image → Nat
  | .pending .ownEntry => 1
  | .pending .inFlight => 2
  | .pending (.group _) => 3
  | .pending .refresh => 4
  | .none | .unknown | .confirmed | .shared => 0

/-- The group of a GROUP cover, or 0xFF. -/
def Image.coverGroup : Image → List Byte
  | .pending (.group g) => n1 g.val
  | .pending .ownEntry | .pending .inFlight | .pending .refresh => [0xFF]
  | .none | .unknown | .confirmed | .shared => [0xFF]

/-- A cover in two bytes (R184). -/
def Image.coverBytes (i : Image) : List Byte := n1 i.coverCode ++ i.coverGroup

/-- REQUEST, PLAN, OVERRIDE_END, REPAIR, RETRY. -/
def Origin.code : Origin → Nat
  | .request => 0 | .plan => 1 | .overrideEnd => 2 | .repair => 3 | .retry _ => 4

/-- 0 normal, 1 urgent, as R186 codes a queue (log entry 33). -/
def QueueId.code : QueueId → Nat
  | .normal => 0 | .urgent => 1

/-- IDLE, QUEUED, IN_FLIGHT, IN_FLIGHT+QUEUED. -/
def FrameState.code : FrameState → Nat
  | .idle => 0 | .queued => 1 | .inFlight => 2 | .inFlightQueued => 3

/-- SET, POLL, SCRUB, GROUP, PASS_SET. -/
def Job.code : Job → Nat
  | .set _ _ _ _ => 0 | .poll _ _ => 1 | .scrub _ _ _ => 2 | .group _ _ _ => 3 | .passSet _ _ _ => 4

/-- URGENT, NORMAL, REFRESH. -/
def Source.code : Source → Nat
  | .urgent => 0 | .normal => 1 | .refresh => 2

/-- OUTBOUND, RELAY_OUT, ANSWER, RELAY_BACK, EXTENSION, REPEAT. -/
def Stage.code : Stage → Nat
  | .outbound => 0 | .relayOut => 1 | .answer => 2 | .relayBack => 3 | .extension => 4 | .repeated => 5

/-- ACQUIRING, UP, DOWN. -/
def LineState.code : LineState → Nat
  | .acquiring => 0 | .up => 1 | .down => 2

/-- 50 Hz, 60 Hz: read as an enumeration of R184, not as the number 50 or 60 (log entry 45). -/
def Frequency.code : Frequency → Nat
  | .hz50 => 0 | .hz60 => 1

/-- AUTO, EXTERNAL. -/
def RefreshMode.code : RefreshMode → Nat
  | .auto => 0 | .external => 1

/-- REASSERT, SCRUB. -/
def RefreshKind.code : RefreshKind → Nat
  | .reassert => 0 | .scrub => 1

/-- off, on. -/
def boolCode (b : Bool) : Nat := if b then 1 else 0

/-! ## The record of a QUERY reply (R186) -/

/-- DELIVER, POLL, PASS_DELIVER; a GROUP entry is no record's own. -/
def Work.code : Work → Nat
  | .deliver _ => 1 | .poll _ => 2 | .passDeliver _ _ => 3 | .group _ => 0

/-- The tariff of a PASS_DELIVER entry, or 0xFF. -/
def Work.tariffByte : Work → List Byte
  | .passDeliver _ t => n1 t.toNat
  | .deliver _ | .poll _ | .group _ => [0xFF]

/-- Offsets 50 to 52: the own entry, kind 0 with none; the origin and queue bits of offset 50 are then sent as 0, the
model's choice (log entry 39). -/
def ownEntryBytes : Option (QueueId × Entry) → List Byte
  | none => [0, 0, 0xFF]
  | some (q, e) =>
    n1 (e.origin.code * 16 + q.code * 8 + e.work.code) ++ n1 e.priority ++ e.work.tariffByte

/-- Offsets 39 to 44: the three override fields. -/
def overrideBytes : Option Override → List Byte
  | none => [0xFF, 0, 0, 0, 0, 0]
  | some o => n1 o.saved.toNat ++ bytes4 o.endsAt ++ n1 o.priority

/-- Offset 46: the six flags. -/
def Record.flagsByte (r : Record) : List Byte :=
  n1 (boolCode r.mismatch * 32 + boolCode (r.flag .lost) * 16 + boolCode r.holdExpired * 8
    + boolCode r.localOverride * 4 + boolCode r.relayFault * 2 + boolCode r.restored)

/-- An optional list of five bytes. -/
def optListBytes (encode : α → List Byte) : Option α → List Byte
  | none => absentList
  | some l => encode l

/-- The 52 bytes after the result code of a QUERY reply (R186), the bits it does not name 0 (log entry 39). -/
def queryContent (r : Record) (own : Option (QueueId × Entry)) : List Byte :=
  n2 r.slot ++ fullAddr r.addr
    ++ n1 (boolCode r.pinned * 128 + boolCode r.enforce * 64 + r.cls.code * 16 + r.check.toNat)
    ++ routeBytes r.primary ++ optListBytes routeBytes r.alternate
    ++ n1 (boolCode r.membershipConfirmed * 64 + boolCode r.inFlight * 32 + boolCode r.redecodeDue * 16
        + r.source.code * 4 + r.coupler.code)
    ++ groupListBytes r.intended ++ optListBytes groupListBytes r.confirmed ++ groupListBytes r.effectiveList
    ++ n1 r.noticeGroup.val ++ n1 (r.image.coverCode * 8 + r.image.code) ++ r.image.coverGroup
    ++ opt1 (r.desired.map (·.toNat)) ++ bytes2 r.revision ++ opt1 (r.mark.map (·.toNat))
    ++ overrideBytes r.override ++ opt1 (r.held.map (·.toNat)) ++ r.flagsByte ++ n1 r.failures
    ++ opt1 (r.rxQuality.map (·.toNat)) ++ opt1 (r.endpointQuality.map (·.toNat)) ++ ownEntryBytes own

/-! ## Frames on the link (R172) -/

/-- The bytes of a frame: START, LEN, KIND, payload and the CRC over LEN, KIND and payload. -/
def LinkFrame.wire (f : LinkFrame) : List Byte :=
  let body := BitVec.ofNat 8 f.payload.length :: f.kind :: f.payload
  0xC3 :: body ++ bytes2 (crc16 body)

/-- The ready frame (R178, R184). -/
def readyFrame (strap : BitVec 2) : LinkFrame :=
  { kind := 0x7F, payload := n2 960 ++ [Config.siliconRevision] ++ n1 strap.toNat }

/-- A notice frame: line number and tag (R179). -/
def Notice.frame (n : Notice) : LinkFrame := { kind := 0x7E, payload := n1 n.line.val ++ [n.tag] }

/-- The results that are followed by the reply content (R176). -/
def ResultCode.carries : ResultCode → Bool
  | .ok | .unchanged | .queued | .queuedAfterFlight | .heldForRefresh | .savedUnderOverride | .staged
  | .noMembers => true
  | .queueFull | .noSuchEndpoint | .alreadyEnrolled | .tableFull | .pinLimit | .noRoute | .badRoute | .badValue
  | .inFlight | .entryExists | .notPending | .planFull | .noSuchEntry | .frameError | .unknownRequest
  | .length => false

/-- An answer whose content is sent only with the results that carry it (R176). -/
def answerWith (s : State) (code : ResultCode) (content : List Byte) : Answer :=
  { state := s, code := code, content := if code.carries then content else [] }

/-- Image state and cover of a record as a reply gives them; nothing for an address without a record. -/
def State.imageBytes (s : State) (a : Addr) : List Byte :=
  match s.lookup a with
  | none => []
  | some r => n1 r.image.code ++ r.image.coverBytes

end Sys2Proof.Machine
end

