-- ==== Sys2Proof/Machine/Couplers.lean ====
section
/-! DEFINITION. How a record's coupler is decided: windows, default, re-decode and learning (R39 to R42). -/

namespace Sys2Proof.Machine

/-- A window contains an address when it lies between base and limit, both included (R39). -/
def Window.contains (w : Window) (a : Addr) : Bool := decide (w.base ≤ a) && decide (a ≤ w.limit)

/-- R40 for a record without a fixed coupler: the first enabled window that contains the address, else
DEFAULT_COUPLER; none when that is NONE. -/
def State.decodeCoupler (s : State) (a : Addr) : Option Coupler :=
  match s.windows.toList.find? fun w => w.enabled && w.contains a with
  | some w => some (.single w.coupler)
  | none => s.defaultCoupler

/-- The decode of R41 for one record: source WINDOW, with the coupler found or, where none is, the one it had. -/
def Record.redecoded (r : Record) (found : Option Coupler) : Record :=
  { r with coupler := found.getD r.coupler, source := .window, redecodeDue := false }

/-- What a re-decode does with one record (R41): nothing if its coupler is FIXED, a mark if it is in flight. -/
def State.redecodeRecord (s : State) (r : Record) : Record :=
  if r.source = .fixed then r
  else if r.inFlight then { r with redecodeDue := true }
  else r.redecoded (s.decodeCoupler r.addr)

/-- The three counts of a re-decode: decoded at once, deferred as in flight, unroutable among those decoded. -/
structure RedecodeCounts where
  decoded : Nat
  deferred : Nat
  unroutable : Nat
  deriving DecidableEq, Repr

/-- The three counts as a reply carries them; at most two records are in flight, so the deferred take one byte (R105,
R184). -/
def RedecodeCounts.bytes (n : RedecodeCounts) : List Byte := n2 n.decoded ++ n1 n.deferred ++ n2 n.unroutable

/-- The re-decode of R41 over the whole table, with the windows and the default as they stand. -/
def State.redecode (s : State) : State := s.updAll s.redecodeRecord

/-- The counts of that re-decode. -/
def State.redecodeCounts (s : State) : RedecodeCounts :=
  let movable := s.table.filter fun r => r.source != .fixed
  { decoded := movable.countP fun r => !r.inFlight
    deferred := movable.countP fun r => r.inFlight
    unroutable := movable.countP fun r => !r.inFlight && (s.decodeCoupler r.addr).isNone }

/-- The re-decode that fell due during a flight, taken after its outcome has been applied (R41, R54). -/
def State.dueRedecode (s : State) (a : Addr) : State :=
  s.updRecord a fun r => if r.redecodeDue then r.redecoded (s.decodeCoupler a) else r

/-- Learning (R42): a coupler that is not FIXED becomes the heard one with source LEARNED when it differs. -/
def Record.learned (r : Record) (heard : Phase) : Record :=
  if r.source = .fixed ∨ r.coupler = .single heard then r
  else { r with coupler := .single heard, source := .learned }

end Sys2Proof.Machine
end

