-- ==== Sys2Proof/Machine/Images.lean ====
section
/-! DEFINITION. Placing a delivery and the rules of SET (R48 to R52), SET_RANGE (R43), POLL, PUSH and the forgetting
of images (R61 to R65). -/

namespace Sys2Proof.Machine

/-! ## Placing a delivery and stating a tariff -/

/-- Placing a delivery (R48), for a PENDING record that is not in flight and has no own entry. -/
def placeDelivery (a : Addr) (priority : Nat) (origin : Origin) (s : State) : State × ResultCode :=
  match s.lookup a with
  | none => (s, .heldForRefresh)
  | some r =>
    if r.cls = .immediate ∧ r.reach = .reachable then
      if s.hasRoom (queueFor priority) then
        ((s.insertEntry (queueFor priority)
            { work := .deliver a, priority := priority, origin := origin }).updRecord a (·.covered .ownEntry),
          .queued)
      else (((s.updRecord a (·.covered .refresh)).countQueueFull).countStranded, .heldForRefresh)
    else (s.updRecord a (·.covered .refresh), .heldForRefresh)

/-- The cover table of R50 for a record whose desired tariff has just been stated. -/
def coverStatement (a : Addr) (priority : Nat) (origin : Origin) (s : State) : State × ResultCode :=
  match s.lookup a with
  | none => (s, .noSuchEndpoint)
  | some r =>
    if r.inFlight then (s.updRecord a (·.covered .inFlight), .queuedAfterFlight)
    else if (s.ownEntry a).isSome then
      ((s.raiseEntry (Entry.isFor a) priority origin).updRecord a (·.covered .ownEntry), .queued)
    else placeDelivery a priority origin s

/-- A new statement of the desired tariff: the revision advances and the group mark is cleared (R46, R50). -/
def Record.stated (r : Record) (t : Tariff) : Record :=
  { r with desired := some t, revision := r.revision + 1, mark := none }

/-- R50: a new desired tariff, PENDING with the cover of its table. -/
def stateTariff (a : Addr) (t : Tariff) (priority : Nat) (origin : Origin) (s : State) : State × ResultCode :=
  coverStatement a priority origin (s.updRecord a (·.stated t))

/-- Replaces the tariff a PASS_DELIVER entry of the record carries (R52). -/
def Entry.retariffed (a : Addr) (t : Tariff) (e : Entry) : Entry :=
  match e.work with
  | .passDeliver b _ => if b = a then { e with work := .passDeliver b t } else e
  | .deliver _ | .poll _ | .group _ => e

/-- A SET for a PASS record (R52). -/
def setPass (r : Record) (t : Tariff) (priority : Nat) (origin : Origin) (s : State) : State × ResultCode :=
  if r.inFlight then (s, .inFlight)
  else if (s.ownEntry r.addr).isSome then
    let replaced := { s with urgent := s.urgent.map (Entry.retariffed r.addr t)
                             normal := s.normal.map (Entry.retariffed r.addr t) }
    (replaced.raiseEntry (Entry.isFor r.addr) priority origin, .queued)
  else if s.hasRoom (queueFor priority) then
    (s.insertEntry (queueFor priority)
      { work := .passDeliver r.addr t, priority := priority, origin := origin }, .queued)
  else (s.countQueueFull, .queueFull)

/-- SET of one record (R49), with its own priority and origin. -/
def setOne (a : Addr) (t : Tariff) (priority : Nat) (origin : Origin) (s : State) : State × ResultCode :=
  match s.lookup a with
  | none => (s, .noSuchEndpoint)
  | some r =>
    if r.cls = .pass then setPass r t priority origin s
    else
      match r.override with
      | some o => (s.updRecord a fun x => { x with override := some { o with saved := t } }, .savedUnderOverride)
      | none =>
        if r.desired = some t ∧ r.image = .confirmed then (s, .unchanged)
        else stateTariff a t priority origin s

/-- Image state, cover and revision as a SET leaves them (R49). -/
def State.setContent (s : State) (a : Addr) : List Byte :=
  match s.lookup a with
  | none => []
  | some r => n1 r.image.code ++ r.image.coverBytes ++ bytes2 r.revision

/-- The SET request (R49). -/
def setRequest (addr : Half) (tariff priority : Byte) (s : State) : Answer :=
  match addrOf s.segment addr with
  | none => refuse s .badValue
  | some a =>
    match s.lookup a with
    | none => refuse s .noSuchEndpoint
    | some _ =>
      match tariffOf tariff, priorityOf priority with
      | some t, some p =>
        let (s', code) := setOne a t p .request s
        answerWith s' code (s'.setContent a)
      | _, _ => refuse s .badValue

/-- SET (R49 to R52). -/
def execSet (addr : Half) (tariff priority : Byte) (s : State) : Host.Outcome State Fault Refusal :=
  .next ((setRequest addr tariff priority s).reply 0x09)

/-! ## SET_RANGE (R43) -/

/-- The counts of a walk over a range or a group. -/
structure WalkCounts where
  changed : Nat
  unchanged : Nat
  skipped : Nat
  deriving DecidableEq, Repr

/-- Units are taken in turn from the start unit; after 255 comes 0 of the same segment (R43). -/
def rangeAddrs (segment : Segment) (start : Byte) (count : Nat) : List Addr :=
  (List.range count).map fun i => segment ++ (start + BitVec.ofNat 8 i)

/-- The units that R43 skips: no record, a pinned record, a PASS record. -/
def State.skipsUnit (s : State) (a : Addr) : Bool :=
  match s.lookup a with
  | none => true
  | some r => r.pinned || r.cls == .pass

/-- One unit of SET_RANGE. -/
def setRangeUnit (t : Tariff) (priority : Nat) (origin : Origin) (acc : State × WalkCounts) (a : Addr) :
    State × WalkCounts :=
  let (s, n) := acc
  if s.skipsUnit a then (s, { n with skipped := n.skipped + 1 })
  else
    let (s', code) := setOne a t priority origin s
    if code = .unchanged then (s', { n with unchanged := n.unchanged + 1 })
    else (s', { n with changed := n.changed + 1 })

/-- SET_RANGE over its units in order. -/
def setRangeWalk (segment : Segment) (start : Byte) (count : Nat) (t : Tariff) (priority : Nat) (origin : Origin)
    (s : State) : State × WalkCounts :=
  (rangeAddrs segment start count).foldl (setRangeUnit t priority origin)
    (s, { changed := 0, unchanged := 0, skipped := 0 })

/-- The SET_RANGE request (R43). -/
def setRangeRequest (segment start : Byte) (count : Half) (tariff priority : Byte) (s : State) : Answer :=
  match segmentOrDefault s.segment segment, tariffOf tariff, priorityOf priority with
  | some g, some t, some p =>
    if 1 ≤ count.toNat ∧ count.toNat ≤ 256 then
      let (s', n) := setRangeWalk g start count.toNat t p .request s
      answerWith s' .ok (n2 n.changed ++ n2 n.unchanged ++ n2 n.skipped)
    else refuse s .badValue
  | _, _, _ => refuse s .badValue

/-- SET_RANGE (R43). -/
def execSetRange (segment start : Byte) (count : Half) (tariff priority : Byte) (s : State) :
    Host.Outcome State Fault Refusal :=
  .next ((setRangeRequest segment start count tariff priority s).reply 0x0A)

/-! ## POLL, PUSH, PUSH ALL (R61 to R63) -/

/-- A PENDING record takes cover OWN_ENTRY and gives up its group mark; another keeps its state (R61). -/
def Record.polled (r : Record) : Record :=
  if r.isPending then { r with image := .pending .ownEntry, mark := none } else r

/-- The POLL request (R61), refused in the order of its table. -/
def pollRequest (addr : Half) (priority : Byte) (s : State) : Answer :=
  match addrOf s.segment addr with
  | none => refuse s .badValue
  | some a =>
    match s.lookup a with
    | none => refuse s .noSuchEndpoint
    | some r =>
      match priorityOf priority with
      | none => refuse s .badValue
      | some p =>
        if r.cls = .pass then refuse s .badValue
        else if r.inFlight then refuse s .inFlight
        else if (s.ownEntry a).isSome then refuse s .entryExists
        else if s.hasRoom (queueFor p) then
          answerWith
            ((s.insertEntry (queueFor p) { work := .poll a, priority := p, origin := .request }).updRecord a
              Record.polled)
            .queued []
        else refuse s.countQueueFull .queueFull

/-- POLL (R61). -/
def execPoll (addr : Half) (priority : Byte) (s : State) : Host.Outcome State Fault Refusal :=
  .next ((pollRequest addr priority s).reply 0x10)

/-- An own DELIVER entry for a record that waits for refresh, the chosen queue having room (R62). -/
def State.pushEntry (s : State) (a : Addr) (p : Nat) : State :=
  (s.insertEntry (queueFor p) { work := .deliver a, priority := p, origin := .request }).updRecord a
    (·.covered .ownEntry)

/-- The counts of PUSH ALL. -/
structure PushCounts where
  queued : Nat
  remaining : Nat
  lost : Nat
  deriving DecidableEq, Repr

/-- One record of the PUSH ALL walk (R63). -/
def pushOne (p : Nat) (acc : State × PushCounts) (a : Addr) : State × PushCounts :=
  let (s, n) := acc
  match s.lookup a with
  | none => acc
  | some r =>
    if r.cls ≠ .pass ∧ r.image = .pending .refresh then
      if r.reach = .lost then (s, { n with lost := n.lost + 1 })
      else if s.hasRoom (queueFor p) then (s.pushEntry a p, { n with queued := n.queued + 1 })
      else (s, { n with remaining := n.remaining + 1 })
    else acc

/-- The PUSH ALL request (R63); a queue takes at most 128 entries, so the number queued takes one byte (R85,
R184). -/
def pushAllRequest (priority : Byte) (s : State) : Answer :=
  match priorityOf priority with
  | none => refuse s .badValue
  | some p =>
    let (s', n) := s.addrs.foldl (pushOne p) (s, { queued := 0, remaining := 0, lost := 0 })
    let s'' := if 0 < n.remaining then s'.countQueueFull else s'
    answerWith s'' .ok (n1 n.queued ++ n2 n.remaining ++ n2 n.lost)

/-- PUSH ALL (R63). -/
def execPushAll (priority : Byte) (s : State) : Host.Outcome State Fault Refusal :=
  .next ((pushAllRequest priority s).reply 0x11)

/-- The PUSH request (R62); the address value 0xFFFF stands for ALL (R183, log entry 35). -/
def pushRequest (addr : Half) (priority : Byte) (s : State) : Answer :=
  if addr = 0xFFFF then pushAllRequest priority s
  else
    match addrOf s.segment addr with
    | none => refuse s .badValue
    | some a =>
      match s.lookup a with
      | none => refuse s .noSuchEndpoint
      | some r =>
        match priorityOf priority with
        | none => refuse s .badValue
        | some p =>
          if r.cls = .pass ∨ r.image ≠ .pending .refresh then refuse s .notPending
          else if r.reach = .lost then answerWith s .heldForRefresh []
          else if s.hasRoom (queueFor p) then answerWith (s.pushEntry a p) .queued []
          else refuse s.countQueueFull .queueFull

/-- PUSH (R62). -/
def execPush (addr : Half) (priority : Byte) (s : State) : Host.Outcome State Fault Refusal :=
  .next ((pushRequest addr priority s).reply 0x11)

/-! ## FORGET and FORGET_ALL (R64, R65) -/

/-- What FORGET makes of a record of class IMMEDIATE or DEFERRED (R64). -/
def Record.forgotten (r : Record) : Record :=
  { r with image := .unknown, confirmed := none, mark := none, mismatch := false }

/-- The contexts with the orphaned mark set for the target (R112). -/
def orphanContexts (a : Addr) (cs : List Context) : List Context :=
  cs.map fun c => if c.job.target? = some a then { c with orphaned := true } else c

/-- A transaction in flight for the record has its orphaned mark still clear: a second FORGET says that it orphaned
none (R112 gives the reply of the first alone, log entry 38). -/
def State.orphans (s : State) (a : Addr) : Bool :=
  s.contexts.any fun c => c.job.target? == some a && !c.orphaned

/-- FORGET of one record of class IMMEDIATE or DEFERRED (R64). -/
def forgetOne (a : Addr) (s : State) : State :=
  let dropped := (s.changeRecord a Record.forgotten).dropEntries (Entry.isFor a)
  { dropped with contexts := orphanContexts a dropped.contexts }

/-- The FORGET request (R64). -/
def forgetRequest (addr : Half) (s : State) : Answer :=
  match addrOf s.segment addr with
  | none => refuse s .badValue
  | some a =>
    match s.lookup a with
    | none => refuse s .noSuchEndpoint
    | some r =>
      if r.cls = .pass then answerWith (s.updRecord a fun x => { x with confirmed := none }) .ok (flagByte false)
      else answerWith (forgetOne a s) .ok (flagByte (s.orphans a))

/-- FORGET (R64). -/
def execForget (addr : Half) (s : State) : Host.Outcome State Fault Refusal :=
  .next ((forgetRequest addr s).reply 0x12)

/-- The records FORGET_ALL forgets: IMMEDIATE or DEFERRED and not pinned (R65). -/
def Record.forgettable (r : Record) : Bool := r.cls != .pass && !r.pinned

/-- The FORGET_ALL request (R65). -/
def forgetAllRequest (s : State) : Answer :=
  let targets := (s.table.filter (·.forgettable)).map (·.addr)
  let orphaned := targets.countP s.orphans
  let s' := (targets.foldl (fun t a => forgetOne a t) s).dropEntries Entry.isGroup
  let removed := (s.urgent.length + s.normal.length) - (s'.urgent.length + s'.normal.length)
  answerWith s' .ok (n2 targets.length ++ n1 orphaned ++ n1 removed)

/-- FORGET_ALL (R65). -/
def execForgetAll (s : State) : Host.Outcome State Fault Refusal :=
  .next ((forgetAllRequest s).reply 0x13)

end Sys2Proof.Machine
end

