-- ==== Sys2Proof/Machine/Groups.lean ====
section
/-! DEFINITION. Groups: members, SET_GROUP, GROUP_SET, GROUP_QUERY (R68 to R78, R84), the marks of a launch (R76)
and the end of a group frame (R79 to R82). -/

namespace Sys2Proof.Machine

/-! ## Members (R69) -/

/-- An eligible member of a group: listed, not pinned, not PASS, not LOST (R69). -/
def Record.eligible (r : Record) (g : Group) : Bool :=
  r.intended.contains g && !r.pinned && r.cls != .pass && r.reach != .lost

/-- The eligible members of a group, in slot-index order. -/
def State.members (s : State) (g : Group) : List Record := s.table.filter (·.eligible g)

/-- The image state is CONFIRMED or SHARED. -/
def Image.believed : Image → Bool
  | .confirmed | .shared => true
  | .none | .unknown | .pending _ => false

/-- Writes the group tariff (R68). -/
def State.setGroupTariff (s : State) (g : Group) (t : Tariff) : State :=
  { s with groups := s.groups.set g { s.groups[g] with tariff := some t } }

/-! ## Treating members (R71) and settling the entry (R72) -/

/-- What a walk over members has done: the counts of R70 and the members given cover GROUP(g). -/
structure MemberWalk where
  state : State
  changed : Nat
  unchanged : Nat
  saved : Nat
  given : List Addr
  deriving DecidableEq, Repr

/-- A walk that has treated nobody. -/
def MemberWalk.start (s : State) : MemberWalk := { state := s, changed := 0, unchanged := 0, saved := 0, given := [] }

/-- The last three rows of R71, for a member whose tariff t is stated. -/
def memberTariff (g : Group) (t : Tariff) (r : Record) (w : MemberWalk) : MemberWalk :=
  if r.desired = some t ∧ r.image.believed = true then { w with unchanged := w.unchanged + 1 }
  else if r.inFlight then
    { w with state := w.state.updRecord r.addr fun x => (x.stated t).covered .inFlight
             changed := w.changed + 1 }
  else
    { w with state := (w.state.dropEntries (Entry.isFor r.addr)).updRecord r.addr fun x =>
               (x.stated t).covered (.group g)
             changed := w.changed + 1
             given := w.given ++ [r.addr] }

/-- One member of SET_GROUP (R71). -/
def treatMember (g : Group) (t : Tariff) (w : MemberWalk) (r : Record) : MemberWalk :=
  match r.override with
  | some o =>
    { w with state := w.state.updRecord r.addr fun x => { x with override := some { o with saved := t } }
             saved := w.saved + 1 }
  | none => memberTariff g t r w

/-- A member whose group entry found no room takes cover REFRESH, an IMMEDIATE one counted (R72). -/
def strandMember (s : State) (a : Addr) : State :=
  match s.lookup a with
  | none => s
  | some r =>
    let covered := s.updRecord a (·.covered .refresh)
    if r.cls = .immediate then covered.countStranded else covered

/-- Settles the group's entry (R72): kept or moved where one is queued, else inserted, else QUEUE_FULL. -/
def settleGroup (g : Group) (priority : Nat) (origin : Origin) (given : List Addr) (s : State) : State × ResultCode :=
  if (s.groupEntry g).isSome then (s.raiseEntry (Entry.isOfGroup g) priority origin, .queued)
  else if s.hasRoom (queueFor priority) then
    (s.insertEntry (queueFor priority) { work := .group g, priority := priority, origin := origin }, .queued)
  else (given.foldl strandMember s.countQueueFull, .queueFull)

/-- What a SET_GROUP did: the walk over the members, with the state it leaves, and the result. -/
structure GroupSetting where
  walk : MemberWalk
  code : ResultCode
  deriving DecidableEq, Repr

/-- SET_GROUP with checked values (R70). -/
def setGroupTo (g : Group) (t : Tariff) (priority : Nat) (origin : Origin) (s : State) : GroupSetting :=
  let written := s.setGroupTariff g t
  match written.members g with
  | [] => { walk := MemberWalk.start written, code := .noMembers }
  | r :: rs =>
    let w := (r :: rs).foldl (treatMember g t) (MemberWalk.start written)
    let (s', code) := settleGroup g priority origin w.given w.state
    { walk := { w with state := s' }, code := code }

/-- The SET_GROUP request (R70); its counts go with QUEUE_FULL too (R176). -/
def setGroupRequest (group tariff priority : Byte) (s : State) : Answer :=
  match groupOf group, tariffOf tariff, priorityOf priority with
  | some g, some t, some p =>
    let x := setGroupTo g t p .request s
    { state := x.walk.state, code := x.code
      content := n2 x.walk.changed ++ n2 x.walk.unchanged ++ n2 x.walk.saved
        ++ n1 (x.walk.state.frameState g).code }
  | _, _, _ => refuse s .badValue

/-- SET_GROUP (R70 to R72). -/
def execSetGroup (group tariff priority : Byte) (s : State) : Host.Outcome State Fault Refusal :=
  .next ((setGroupRequest group tariff priority s).reply 0x0B)

/-! ## GROUP_SET (R73) -/

/-- The GROUP_SET request (R73). -/
def groupSetRequest (group repeats : Byte) (s : State) : Answer :=
  match groupOf group with
  | none => refuse s .badValue
  | some g =>
    if h : repeats.toNat < 4 then
      answerWith { s with groups := s.groups.set g { s.groups[g] with repeats := ⟨repeats.toNat, h⟩ } } .ok []
    else refuse s .badValue

/-- GROUP_SET (R73). -/
def execGroupSet (group repeats : Byte) (s : State) : Host.Outcome State Fault Refusal :=
  .next ((groupSetRequest group repeats s).reply 0x0C)

/-! ## GROUP_QUERY (R84) -/

/-- The queued entry's queue, priority and origin, absent fields as 0xFF. -/
def queuedBytes : Option (QueueId × Entry) → List Byte
  | none => [0xFF, 0xFF, 0xFF]
  | some (q, e) => n1 q.code ++ n1 e.priority ++ n1 e.origin.code

/-- The frame in flight: sequence, tariff, repeat count, coupler, slots remaining, absent fields as 0xFF. -/
def frameBytes : Option Context → List Byte
  | none => [0xFF, 0xFF, 0xFF, 0xFF, 0xFF]
  | some c =>
    match c.job with
    | .group _ t r => n1 c.seq.toNat ++ n1 t.toNat ++ n1 r.val ++ n1 c.coupler.code ++ n1 c.remaining
    | .set _ _ _ _ | .poll _ _ | .scrub _ _ _ | .passSet _ _ _ => [0xFF, 0xFF, 0xFF, 0xFF, 0xFF]

/-- The records holding a mark equal to the sequence of the frame in flight. -/
def State.markedCount (s : State) (g : Group) : Nat :=
  match s.frameOf g with
  | none => 0
  | some c => s.table.countP fun r => r.mark == some c.seq

/-- The image is PENDING with cover GROUP(g). -/
def Image.waitsFor (g : Group) (i : Image) : Bool := i == .pending (.group g)

/-- The image is PENDING with another cover. -/
def Image.waitsElsewhere (g : Group) : Image → Bool
  | .pending c => c != .group g
  | .none | .unknown | .confirmed | .shared => false

/-- The records that list the group, whatever their class, pin or reach (R84, R156). -/
def State.listing (s : State) (g : Group) : List Record := s.table.filter fun r => r.intended.contains g

/-- The counts of R84 behind that of the pinned, in its order. -/
def State.groupCounts (s : State) (g : Group) : List Nat :=
  let listed := s.listing g
  let members := s.members g
  [ listed.countP fun r => !r.pinned && r.cls == .pass,
    listed.countP fun r => !r.pinned && r.cls != .pass && r.reach == .lost,
    members.countP fun r => r.image == .unknown,
    members.countP fun r => r.image.waitsFor g,
    members.countP fun r => r.image.waitsElsewhere g,
    members.countP fun r => r.image == .confirmed,
    members.countP fun r => r.image == .shared,
    members.countP fun r => r.stores g,
    members.countP fun r => !r.stores g,
    s.table.countP fun r => !r.intended.contains g && r.stores g,
    s.markedCount g ]

/-- The counts of R84 in its order, each in two bytes but for the pinned, which are at most 120 (R25, R184). -/
def State.groupCountBytes (s : State) (g : Group) : List Byte :=
  n2 (s.listing g).length ++ n2 (s.members g).length ++ n1 ((s.listing g).countP (·.pinned))
    ++ (s.groupCounts g).flatMap n2

/-- The GROUP_QUERY request (R84). -/
def groupQueryRequest (group : Byte) (s : State) : Answer :=
  match groupOf group with
  | none => refuse s .badValue
  | some g =>
    answerWith s .ok
      (n1 g.val ++ opt1 (s.groups[g].tariff.map (·.toNat)) ++ n1 s.groups[g].repeats.val
        ++ n1 (s.frameState g).code ++ queuedBytes (s.groupEntry g) ++ frameBytes (s.frameOf g)
        ++ s.groupCountBytes g)

/-- GROUP_QUERY (R84). -/
def execGroupQuery (group : Byte) (s : State) : Host.Outcome State Fault Refusal :=
  .next ((groupQueryRequest group s).reply 0x0D)

/-! ## Launch of a group frame (R75, R76) -/

/-- The coupler of a group frame: the one coupler of the members' coupler set, else BRIDGED (R75). -/
def groupCoupler (members : List Record) : Coupler :=
  match allPhases.filter fun p => members.any fun r => r.coupler.phases.contains p with
  | [p] => .single p
  | _ => .bridged

/-- A marked member's image: cover REFRESH, and the cover of another group, become GROUP(g) (R76). -/
def Image.joined (g : Group) : Image → Image
  | .pending .refresh => .pending (.group g)
  | .pending (.group _) => .pending (.group g)
  | .pending .ownEntry => .pending .ownEntry
  | .pending .inFlight => .pending .inFlight
  | .none => .none
  | .unknown => .unknown
  | .confirmed => .confirmed
  | .shared => .shared

/-- What the launch of a frame does to one record (R76). -/
def Record.marked (g : Group) (t : Tariff) (q : Seq) (r : Record) : Record :=
  if r.eligible g = true ∧ r.desired = some t ∧ r.image ≠ .pending .ownEntry then
    { r with mark := some q, image := r.image.joined g }
  else r

/-! ## The end of a group frame (R79 to R82) -/

/-- How a row that calls for a delivery places it: by R48, or with cover REFRESH directly under RESTART (R82). -/
inductive FramePlacing where
  | deliver | refreshOnly
  deriving DecidableEq, Repr

/-- Places a delivery that a frame's end calls for. -/
def placeAfterFrame (how : FramePlacing) (a : Addr) (priority : Nat) (s : State) : State :=
  match how with
  | .deliver => (placeDelivery a priority .repair s).1
  | .refreshOnly => s.updRecord a (·.covered .refresh)

/-- A cover that a record holds is still true at the end of a frame: its own entry, or a group whose next frame
is queued (R79). -/
def State.coverStands (s : State) (i : Image) : Bool :=
  match i with
  | .pending .ownEntry => true
  | .pending (.group h) => (s.groupEntry h).isSome
  | .pending .inFlight | .pending .refresh | .none | .unknown | .confirmed | .shared => false

/-- The third row of R79: a record that stores the group and wants another tariff is PENDING. A record that is not
PENDING and has an own POLL entry takes that entry as its cover (log entry 16). -/
def disturbedBy (how : FramePlacing) (a : Addr) (priority : Nat) (i : Image) (s : State) : State :=
  if s.coverStands i then s
  else if (s.ownEntry a).isSome then s.updRecord a (·.covered .ownEntry)
  else placeAfterFrame how a priority s

/-- R79, for a record whose confirmed list contains the group. -/
def frameReached (how : FramePlacing) (t : Tariff) (q : Seq) (priority : Nat) (r : Record) (s : State) : State :=
  let heldNow := s.updRecord r.addr fun x => { x with held := some t }
  if r.desired = some t then
    if r.mark = some q then
      if r.image = .confirmed then heldNow else heldNow.updRecord r.addr fun x => { x with image := .shared }
    else heldNow
  else if r.desired = none then heldNow
  else disturbedBy how r.addr priority r.image heldNow

/-- R80, for a record whose confirmed list is absent or lacks the group. -/
def frameMissed (how : FramePlacing) (g : Group) (t : Tariff) (priority : Nat) (r : Record) (s : State) : State :=
  if r.confirmed = none ∧ r.image.believed = true ∧ r.desired ≠ some t then
    s.updRecord r.addr fun x => { x with image := .unknown }
  else if r.image = .pending (.group g) ∧ (s.groupEntry g).isSome = false then
    placeAfterFrame how r.addr priority s
  else s

/-- The end of a frame applied to the record with an address (R79, R80); PASS records and records in flight are
passed over. -/
def frameEndsFor (how : FramePlacing) (g : Group) (t : Tariff) (q : Seq) (priority : Nat) (s : State) (a : Addr) :
    State :=
  match s.lookup a with
  | none => s
  | some r =>
    if r.cls = .pass ∨ r.inFlight = true then s
    else if r.stores g then frameReached how t q priority r s
    else frameMissed how g t priority r s

/-- The end of a group frame over the whole table, in slot-index order, and the clearing of its marks (R79 to
R81). -/
def frameEnds (how : FramePlacing) (g : Group) (t : Tariff) (q : Seq) (priority : Nat) (s : State) : State :=
  (s.addrs.foldl (frameEndsFor how g t q priority) s).updAll fun r =>
    if r.mark = some q then { r with mark := none } else r

end Sys2Proof.Machine
end

