-- ==== Sys2Proof/Machine/Refresh.lean ====
section
/-! DEFINITION. The Refresh Controller (R123 to R130, R135 to R140) up to the launch, which is the arbiter's. -/

namespace Sys2Proof.Machine

/-! ## REFRESH_BACKLOG (R140) -/

/-- The quantity of the mode in force: B in AUTO, M in EXTERNAL (R140). -/
def Refresh.quantity (r : Refresh) : Nat :=
  match r.mode with
  | .auto => r.backlog
  | .external => r.missed

/-- The level R140 gives: the quantity is at or above BACKLOG_LIMIT. -/
def Refresh.overLimit (r : Refresh) : Bool := decide (r.limit ≤ r.quantity)

/-- The evaluation of R140: a change of level is handed to the Condition Tracker. -/
def State.evaluateBacklog (s : State) : State :=
  if s.refresh.overLimit = s.refresh.backlogLevel then s
  else noticeChange s { s with refresh := { s.refresh with backlogLevel := s.refresh.overLimit } }

/-- Writes B and M, then evaluates the source. -/
def State.setOwed (s : State) (backlog missed : Nat) : State :=
  { s with refresh := { s.refresh with backlog := backlog, missed := missed } }.evaluateBacklog

/-! ## Owing refreshes (R124 to R126) -/

/-- Restarts the interval timer: the next expiry falls REFRESH_INTERVAL seconds from now, modulo 2^32 (R124). -/
def State.restartTimer (s : State) : State :=
  { s with refresh := { s.refresh with timer := s.timebase.uptime + BitVec.ofNat 32 s.refresh.interval } }

/-- An expiry raises B in AUTO and M in EXTERNAL, no further than 1023 (R125). -/
def State.countExpiry (s : State) : State :=
  match s.refresh.mode with
  | .auto => s.setOwed (addTo1023 s.refresh.backlog 1) s.refresh.missed
  | .external => s.setOwed s.refresh.backlog (addTo1023 s.refresh.missed 1)

/-- Takes the expiry when uptime stands at the second the timer holds (R124, R125). -/
def takeExpiry (s : State) : State :=
  if s.refresh.timer = s.timebase.uptime then s.restartTimer.countExpiry else s

/-- REFRESH_INTERVAL_EXPIRY (R124, R125). -/
def execRefreshIntervalExpiry (s : State) : Host.Outcome State Fault Refusal := .next (takeExpiry s)

/-- The REFRESH_NOW request (R126). -/
def refreshNowRequest (n : Half) (s : State) : Answer :=
  if 1 ≤ n.toNat ∧ n.toNat ≤ 1023 then
    let s' := s.setOwed (addTo1023 s.refresh.backlog n.toNat) (s.refresh.missed - n.toNat)
    answerWith s' .ok (n2 s'.refresh.backlog ++ n2 s'.refresh.missed)
  else refuse s .badValue

/-- REFRESH_NOW (R126). -/
def execRefreshNow (n : Half) (s : State) : Host.Outcome State Fault Refusal :=
  .next ((refreshNowRequest n s).reply 0x18)

/-! ## Finding the target (R128, R129) -/

/-- A record that a search takes: IMMEDIATE or DEFERRED and not in flight (R128). -/
def Record.refreshable (r : Record) : Bool := r.cls != .pass && !r.inFlight

/-- The refresh target: the first such record from slot P upward, wrapping to 0 (R128). -/
def State.refreshTarget (s : State) : Option Record :=
  match s.table.find? fun r => r.refreshable && decide (s.refresh.pointer ≤ r.slot) with
  | some r => some r
  | none => s.table.find? (·.refreshable)

/-- The Controller makes an offer: B above 0, REFRESH_PRIORITY above LINE_MASK, no refresh in flight (R128). -/
def State.offersRefresh (s : State) : Bool :=
  decide (0 < s.refresh.backlog) && decide (s.arbiter.lineMask < s.refresh.priority) && s.refresh.inFlight.isNone

/-- An empty refresh: B falls by 1, P stays (R129). -/
def State.emptyRefresh (s : State) : State := s.setOwed (s.refresh.backlog - 1) s.refresh.missed

/-! ## Completion, mains return (R135, R139) -/

/-- Accounts a refresh that has ended: B falls by 1, P passes the target (R135). -/
def State.accountRefresh (s : State) : State :=
  match s.refresh.inFlight with
  | none => s
  | some i =>
    { s with refresh := { s.refresh with pointer := (i + 1) % 960, inFlight := none } }.setOwed
      (s.refresh.backlog - 1) s.refresh.missed

/-- The records the restore sweep counts (R139). -/
def State.sweepCount (s : State) : Nat := s.table.countP fun r => r.cls != .pass

/-- The restore sweep of a mains return (R139). -/
def State.restoreSweep (s : State) : State :=
  let walked := { s with refresh := { s.refresh with pointer := 0 } }
  match s.refresh.mode with
  | .auto => walked.setOwed (min s.sweepCount 1023) s.refresh.missed
  | .external => walked.setOwed s.refresh.backlog s.sweepCount

end Sys2Proof.Machine
end

