-- ==== Sys2Proof/Machine/Transactions.lean ====
section
/-! DEFINITION. Transactions: stages, the routes of attempts, and the ends of individual transactions, scrubs and
group frames (R53 to R60, R105 to R120, R133 to R135). -/

namespace Sys2Proof.Machine

/-! ## Stages (R108, R110, R111) -/

/-- The stage of slot j of an individual transaction of h hops, or of a scrub's extension (R108, R110). -/
def individualStage (h : Nat) (first : Stage) (j : Nat) : Stage :=
  if j = 0 then first
  else if j ≤ h then .relayOut
  else if j = h + 1 then .answer
  else .relayBack

/-- The stage of slot j of a transaction. -/
def Context.stageAt (c : Context) (j : Nat) : Stage :=
  match c.job with
  | .group _ _ _ => if j = 0 then .outbound else .repeated
  | .scrub _ _ (some _) => individualStage c.route.length .extension j
  | .set _ _ _ _ | .poll _ _ | .passSet _ _ _ | .scrub _ _ none => individualStage c.route.length .outbound j

/-- A transaction passes into its next slot (R108, R111). -/
def Context.advanced (c : Context) : Context :=
  { c with remaining := c.remaining - 1, stage := c.stageAt (c.length - (c.remaining - 1)) }

/-! ## Routes and the loss limit (R113, R114) -/

/-- The loss limit of a record (R113). -/
def Record.lossLimit (attempts : Nat) (r : Record) : Nat :=
  if r.alternate.isSome then 2 * attempts else attempts

/-- The route of an attempt by reach and failure count (R114). -/
def Record.routeFor (attempts : Nat) (r : Record) : List Addr :=
  match r.reach, r.alternate with
  | .reachable, some l => if attempts ≤ r.failures then l else r.primary
  | .reachable, none => r.primary
  | .lost, _ => r.primary

/-! ## Couplers (R10, R101) -/

/-- Sets the free-at value of the phases a coupler needs. -/
def Arbiter.freedAt (x : Arbiter) (c : Coupler) (at' : Boundary) : Arbiter :=
  { x with
    freeA := if c.phases.contains .a then some at' else x.freeA
    freeB := if c.phases.contains .b then some at' else x.freeB
    freeC := if c.phases.contains .c then some at' else x.freeC }

/-- The guard in effect at an end: the staged one where this end leaves nothing in flight at the boundary, so that
staged values apply there (R10, R103, log entry 6). -/
def State.guardAtEnd (s : State) (others : List Context) : Nat :=
  if others.all fun c => c.remaining == 1 then s.arbiter.guard.staged.getD s.arbiter.guard.active
  else s.arbiter.guard.active

/-- Releases the coupler of a transaction that has ended at the present boundary, and a scrub's reservation with it
(R10, R99, R101). -/
def State.releaseCoupler (s : State) (c : Context) (guardSlots : Nat) : State :=
  let freed := s.arbiter.freedAt c.coupler (s.boundary + BitVec.ofNat 32 guardSlots)
  { s with arbiter := { freed with reservation := if c.job.isScrub then none else freed.reservation } }

/-! ## ACK outcomes (R55 to R58, R133) -/

/-- The recording of R55. -/
def Record.acked (f : AckFrame) (heard : Phase) (q : Quality) (sent : Option (List Group)) (r : Record) : Record :=
  { r.learned heard with
    failures := 0, reach := .reachable, held := some f.held, restored := f.restored, relayFault := f.relayFault,
    localOverride := f.localOverride, holdExpired := f.holdExpired, rxQuality := some q,
    endpointQuality := some f.quality
    confirmed := match sent with
      | some l => some l
      | none => r.confirmed }

/-- What an ACK decides for the image. -/
inductive Decision where
  /-- the image and its cover stay as they are -/
  | keep
  /-- CONFIRMED, no cover, MISMATCH deasserted -/
  | confirm
  /-- UNKNOWN, no cover, MISMATCH asserted -/
  | report
  /-- a delivery is placed at the transaction's priority with origin REPAIR -/
  | deliver
  /-- a scrub continues into its extension -/
  | repair
  deriving DecidableEq, Repr

/-- The first case of R56: the revision has moved. -/
def decideMoved (r : Record) : Decision :=
  match r.image with
  | .pending .inFlight => .deliver
  | .pending .ownEntry | .pending (.group _) | .pending .refresh => .keep
  | .none | .unknown | .confirmed | .shared => .deliver

/-- R56, for a record as R55 has left it. -/
def decideSet (revision : BitVec 16) (r : Record) : Decision :=
  if r.revision ≠ revision then decideMoved r
  else if r.held = r.desired then .confirm
  else if r.enforce then .deliver
  else .report

/-- R57, for a record as R55 has left it. -/
def decidePoll (revision : BitVec 16) (r : Record) : Decision :=
  if r.desired = none then .keep
  else if r.revision ≠ revision then decideMoved r
  else if r.held = r.desired then .confirm
  else if r.isPending = true ∨ r.enforce = true then .deliver
  else .report

/-- The ACK rows of R133, for a record as R55 has left it. -/
def decideScrub (revision : BitVec 16) (r : Record) : Decision :=
  if r.revision ≠ revision then .repair
  else if r.held = r.desired then .confirm
  else if r.isPending = true ∨ r.enforce = true then .repair
  else .report

/-- The image decision of a transaction's kind (R54). -/
def Job.decide (j : Job) (r : Record) : Decision :=
  match j with
  | .set _ rev _ _ => decideSet rev r
  | .poll _ rev => decidePoll rev r
  | .scrub _ rev none => decideScrub rev r
  | .scrub _ rev (some _) => decideSet rev r
  | .passSet _ _ _ => .keep
  | .group _ _ _ => .keep

/-- What a decision writes in the record; a delivery is placed afterwards, a repair's cover is that of its
flight (R133). -/
def Record.decided (d : Decision) (r : Record) : Record :=
  match d with
  | .confirm => { r with image := .confirmed, mismatch := false }
  | .report => { r with image := .unknown, mismatch := true }
  | .repair => { r with image := .pending .inFlight, mark := none }
  | .keep => r
  | .deliver => r

/-- An orphaned record owes a delivery only when a tariff was stated after the FORGET (R60). -/
def decideOrphan (r : Record) : Decision := if r.image = .pending .inFlight then .deliver else .keep

/-- The decision on an ACK: by kind, or by R60 for an orphaned transaction. -/
def Context.decide (c : Context) (r : Record) : Decision :=
  if c.orphaned then decideOrphan r else c.job.decide r

/-- Places the delivery a decision calls for. -/
def State.placeDecided (s : State) (a : Addr) (priority : Nat) (d : Decision) : State :=
  match d with
  | .deliver => (placeDelivery a priority .repair s).1
  | .keep | .confirm | .report | .repair => s

/-- The end of a transaction with an ACK applied to its record, one change set (R54 to R58, R60). -/
def applyAck (c : Context) (a : Addr) (f : AckFrame) (heard : Phase) (q : Quality) (s : State) : State :=
  match s.lookup a with
  | none => s
  | some r =>
    let d := c.decide (r.acked f heard q c.job.sentList)
    (s.changeRecord a fun x =>
      { (x.acked f heard q c.job.sentList).decided d with inFlight := false }).placeDecided a c.priority d

/-! ## Failing outcomes (R59, R60, R115 to R118) -/

/-- A failing outcome (R23). -/
inductive Failure where
  | authFail | garbled | silent
  deriving DecidableEq, Repr

/-- Its STATUS counter rises by 1 (R115). -/
def State.countFailure (s : State) (f : Failure) : State :=
  match f with
  | .authFail => { s with counters := { s.counters with authFail := bump s.counters.authFail } }
  | .garbled => { s with counters := { s.counters with garbled := bump s.counters.garbled } }
  | .silent => { s with counters := { s.counters with silent := bump s.counters.silent } }

/-- The LOST transition (R118). -/
def Record.becomesLost (r : Record) : Record :=
  { r with reach := .lost, restored := false, relayFault := false, localOverride := false, holdExpired := false }

/-- A failure counted in the record, with the LOST transition where the count reaches the loss limit (R115). -/
def Record.failed (attempts : Nat) (r : Record) : Record :=
  let counted := { r with failures := bumpFailures r.failures, inFlight := false }
  if r.reach = .reachable ∧ r.lossLimit attempts ≤ counted.failures then counted.becomesLost else counted

/-- The queue a transaction was launched from; none for a refresh (R107). -/
def Source.queue? : Source → Option QueueId
  | .urgent => some .urgent
  | .normal => some .normal
  | .refresh => none

/-- The work of a retry entry: of the kind of the entry that launched (R116). -/
def Job.retryWork? : Job → Option Work
  | .set a _ _ _ => some (.deliver a)
  | .poll a _ => some (.poll a)
  | .passSet a t _ => some (.passDeliver a t)
  | .scrub _ _ _ => none
  | .group _ _ _ => none

/-- A record PENDING with cover IN_FLIGHT takes another cover; any other record keeps its state (R59). -/
def Record.landed (cover : Cover) (r : Record) : Record :=
  if r.image = .pending .inFlight then r.covered cover else r

/-- The retry of a failed attempt that meets R116: an entry at the tail of the queue the failed one stood in, else
STRANDED; the cover follows (R59, R116). -/
def retryAttempt (a : Addr) (q : QueueId) (w : Work) (priority : Nat) (route : List Addr) (s : State) : State :=
  if s.hasRoom q then
    (s.insertEntry q { work := w, priority := priority, origin := .retry route }).updRecord a (·.landed .ownEntry)
  else s.countStranded.updRecord a (·.landed .refresh)

/-- The retry decision for a record as the failure has left it (R60, R116, R117). -/
def settleFailure (c : Context) (a : Addr) (s : State) : State :=
  match s.lookup a with
  | none => s
  | some r =>
    if c.orphaned then s.placeDecided a c.priority (decideOrphan r)
    else
      match r.reach, c.source.queue?, c.job.retryWork? with
      | .reachable, some q, some w => retryAttempt a q w c.priority (r.routeFor s.attempts) s
      | .reachable, some _, none => s.updRecord a (·.landed .refresh)
      | .reachable, none, _ => s.updRecord a (·.landed .refresh)
      | .lost, _, _ => s.updRecord a (·.landed .refresh)

/-- The end of a transaction with a failing outcome applied to its record (R59, R115). -/
def applyFailure (c : Context) (a : Addr) (f : Failure) (s : State) : State :=
  settleFailure c a ((s.countFailure f).changeRecord a (Record.failed s.attempts))

/-! ## Ends -/

/-- The outcome of the listening slot applied to the record (R54). -/
def applyResult (c : Context) (a : Addr) (result : LineResult) (s : State) : State :=
  match result with
  | .ack f heard q => applyAck c a f heard q s
  | .authFail => applyFailure c a .authFail s
  | .garbled => applyFailure c a .garbled s
  | .silent => applyFailure c a .silent s

/-- The accounting of a refresh that has ended (R135). -/
def State.accountSource (s : State) (src : Source) : State :=
  match src with
  | .refresh => s.accountRefresh
  | .urgent | .normal => s

/-- The transactions in flight without the next to end. -/
def State.othersAtEnd (s : State) : List Context := s.contexts.eraseP fun c => c.remaining == 1

/-- The next transaction to end at the boundary that is due: the one launched earliest of those in their last slot
(R109). -/
def State.nextEnd (s : State) : Option Context :=
  if s.mains.boundaryDue then s.contexts.find? fun c => c.remaining == 1 else none

/-- An individual transaction ends, or a scrub at its POLL part without repair (R109, R54): the outcome, a due
re-decode, the accounting, the release of the coupler. -/
def endIndividual (c : Context) (a : Addr) (s : State) : State :=
  let result := s.lineResult c a
  let guardSlots := s.guardAtEnd s.othersAtEnd
  let discarded := { s with contexts := s.othersAtEnd }
  (((applyResult c a result discarded).dueRedecode a).accountSource c.source).releaseCoupler c guardSlots

/-- A scrub that decides to repair (R110, R133, R134): the record is PENDING with cover IN_FLIGHT, and the context
takes the extension's values afresh. -/
def continueScrub (c : Context) (a : Addr) (f : AckFrame) (heard : Phase) (q : Quality) (s : State) : State :=
  let recorded := s.changeRecord a fun x => (x.acked f heard q none).decided .repair
  match recorded.lookup a with
  | none => recorded
  | some r =>
    let extended : Context :=
      { c with
        job := .scrub a r.revision
          (some { tariff := r.desired.getD Config.undefinedTariff, list := r.effectiveList })
        stage := .extension
        remaining := 2 + 2 * c.route.length }
    { recorded with contexts := recorded.contexts.map fun x => if x = c then extended else x }

/-- The decision of a scrub at the end of its POLL part (R133). -/
def decideScrubPart (c : Context) (a : Addr) (s : State) : State :=
  match s.lineResult c a, s.lookup a with
  | .ack f heard q, some r =>
    if c.decide (r.acked f heard q none) = .repair then continueScrub c a f heard q s else endIndividual c a s
  | _, _ => endIndividual c a s

/-- A group frame ends with outcome SENT (R79 to R81, R111). -/
def endGroupFrame (c : Context) (g : Group) (t : Tariff) (s : State) : State :=
  let guardSlots := s.guardAtEnd s.othersAtEnd
  (frameEnds .deliver g t c.seq c.priority { s with contexts := s.othersAtEnd }).releaseCoupler c guardSlots

/-- The next end that is due is taken, whatever its kind (R109). -/
def takeNextEnd (s : State) : State :=
  match s.nextEnd with
  | none => s
  | some c =>
    match c.job with
    | .group g t _ => endGroupFrame c g t s
    | .scrub a _ none => decideScrubPart c a s
    | .set a _ _ _ | .poll a _ | .passSet a _ _ | .scrub a _ (some _) => endIndividual c a s

/-- TRANSACTION_END (R109): the next end is that of an individual transaction, or of a scrub in its extension. -/
def execTransactionEnd (s : State) : Host.Outcome State Fault Refusal :=
  match s.nextEnd with
  | none => .next s
  | some c => if c.job.target?.isSome = true ∧ c.job.inPollPart = false then .next (takeNextEnd s) else .next s

/-- SCRUB_DECISION (R133): the next end is that of a scrub's POLL part. -/
def execScrubDecision (s : State) : Host.Outcome State Fault Refusal :=
  match s.nextEnd with
  | none => .next s
  | some c => if c.job.inPollPart then .next (takeNextEnd s) else .next s

/-- GROUP_FRAME_END (R79): the next end is that of a group frame. -/
def execGroupFrameEnd (s : State) : Host.Outcome State Fault Refusal :=
  match s.nextEnd with
  | none => .next s
  | some c => if c.job.group?.isSome then .next (takeNextEnd s) else .next s

end Sys2Proof.Machine
end

