-- ==== Sys2Proof/Machine/Records.lean ====
section
/-! DEFINITION. The Endpoint Table's own requests: SEGMENT_SET, WINDOW_SET, ENROL, AMEND, RETIRE and QUERY (R24 to
R41). -/

namespace Sys2Proof.Machine

/-! ## SEGMENT_SET (R24) and WINDOW_SET (R39, R41) -/

/-- The SEGMENT_SET request (R24). -/
def segmentSetRequest (segment : Byte) (s : State) : Answer :=
  match segmentOf segment with
  | none => refuse s .badValue
  | some g => answerWith { s with segment := g } .ok []

/-- SEGMENT_SET (R24). -/
def execSegmentSet (segment : Byte) (s : State) : Host.Outcome State Fault Refusal :=
  .next ((segmentSetRequest segment s).reply 0x03)

/-- The WINDOW_SET request (R39), with the re-decode it triggers (R41). -/
def windowSetRequest (window : Byte) (base limit : Half) (coupler enabled : Byte) (s : State) : Answer :=
  match addrOf s.segment base, addrOf s.segment limit, phaseOf coupler with
  | some b, some l, some phase =>
    if h : window.toNat < 8 then
      if b ≤ l ∧ flagOk enabled = true then
        let written := { s with
          windows := s.windows.set window.toNat { base := b, limit := l, coupler := phase, enabled := flagSet enabled } }
        answerWith written.redecode .ok written.redecodeCounts.bytes
      else refuse s .badValue
    else refuse s .badValue
  | _, _, _ => refuse s .badValue

/-- WINDOW_SET (R39, R41). -/
def execWindowSet (window : Byte) (base limit : Half) (coupler enabled : Byte) (s : State) :
    Host.Outcome State Fault Refusal :=
  .next ((windowSetRequest window base limit coupler enabled s).reply 0x04)

/-! ## ENROL (R29 to R31) -/

/-- A fixed coupler as ENROL gives it: absent as 0xFF (R183). -/
def enrolCouplerOk (b : Byte) : Bool := b == 0xFF || (couplerOf b).isSome

/-- The fields of ENROL other than the hop counts keep the encodings of R183 (R175). -/
def enrolEncodingOk (dflt : Segment) (f : EnrolFields) : Bool :=
  (addrOf dflt f.addr).isSome && (classOf f.cls).isSome && flagOk f.enforce && flagOk f.pinned
    && flagOk f.assumedHeld && flagOk f.fresh && enrolCouplerOk f.fixedCoupler
    && decide (f.groups.count.toNat ≤ 4)
    && (readRoute dflt f.primary).addressesOk && (readRoute dflt f.alternate).addressesOk

/-- A primary route field of ENROL is a route of 0..2 hops (R183). -/
def enrolPrimaryOk (r : RouteRead) : Bool := r.hops?.isSome

/-- An alternate route field of ENROL is a route or the code of an absent one (R183). -/
def enrolAlternateOk (r : RouteRead) : Bool := r.hops?.isSome || r == .codeFF

/-- The fields of ENROL lie in their ranges (R29, order 1). -/
def enrolRangesOk (f : EnrolFields) : Bool :=
  decide (f.check.toNat < 16) && groupsInRange f.groups && (noticeGroupOf f.noticeGroup).isSome
    && optTariffOk f.initialTariff && (priorityOf f.priority).isSome
    && (classOf f.cls != some .pass || f.initialTariff == 0xFF)

/-- The coupler of a new record and its source: fixed, else decoded by R40; none when no coupler is found. -/
def State.enrolCoupler (s : State) (a : Addr) (fixedCoupler : Byte) : Option (Coupler × CouplerSource) :=
  match couplerOf fixedCoupler with
  | some x => some (x, .fixed)
  | none => (s.decodeCoupler a).map fun x => (x, .window)

/-- The image of a new record, before its delivery is placed (R31). -/
def enrolImage (cls : EndpointClass) (initial : Option Tariff) (assumed : Bool) : Image :=
  match cls, initial with
  | .pass, _ => .none
  | .immediate, none | .deferred, none => .unknown
  | .immediate, some _ | .deferred, some _ => if assumed then .confirmed else .pending .refresh

/-- The new record (R26, R30, R31). -/
def newRecord (f : EnrolFields) (slot : Nat) (a : Addr) (cls : EndpointClass)
    (coupler : Coupler × CouplerSource) (dflt : Segment) : Record :=
  let initial := tariffOf f.initialTariff
  { slot := slot, addr := a, check := f.check.setWidth 4, cls := cls
    enforce := flagSet f.enforce, pinned := flagSet f.pinned
    primary := (readRoute dflt f.primary).hops?.getD []
    alternate := (readRoute dflt f.alternate).hops?
    coupler := coupler.1, source := coupler.2, redecodeDue := false
    intended := groupsOf f.groups
    confirmed := if flagSet f.fresh then some [] else none
    noticeGroup := (noticeGroupOf f.noticeGroup).getD 0
    image := enrolImage cls initial (flagSet f.assumedHeld)
    desired := initial
    revision := if initial.isSome then 1 else 0
    mark := none, override := none
    held := if flagSet f.assumedHeld then initial else none
    restored := false, relayFault := false, localOverride := false, holdExpired := false, mismatch := false
    reach := .reachable, failures := 0, rxQuality := none, endpointQuality := none, inFlight := false }

/-- The record enrolled, with its delivery placed as for a SET where it is PENDING (R31). -/
def enrolRecord (r : Record) (priority : Nat) (s : State) : State × ResultCode :=
  let added := { s with table := insertRecord r s.table }
  if r.isPending then placeDelivery r.addr priority .request added else (added, .ok)

/-- The checks of ENROL after the fields' own, in the order of R29. -/
def enrolRefusal (f : EnrolFields) (a : Addr) (s : State) : Option ResultCode :=
  let primary := readRoute s.segment f.primary
  let alternate := readRoute s.segment f.alternate
  if enrolRangesOk f = false then some .badValue
  else if routeAllowed a (primary.hops?.getD []) = false ∨ optRouteAllowed a alternate.hops? = false then
    some .badRoute
  else if (s.lookup a).isSome then some .alreadyEnrolled
  else if flagSet f.pinned = true ∧ 120 ≤ s.pinCount then some .pinLimit
  else if s.enrolCoupler a f.fixedCoupler = none then some .noRoute
  else if 960 ≤ s.table.length then some .tableFull
  else none

/-- The reply content of ENROL (R30): slot index, coupler, source, image state, cover. -/
def State.enrolContent (s : State) (a : Addr) : List Byte :=
  match s.lookup a with
  | none => []
  | some r => n2 r.slot ++ n1 r.coupler.code ++ n1 r.source.code ++ n1 r.image.code ++ r.image.coverBytes

/-- The ENROL request (R29 to R31; encodings first, R175, log entry 34). -/
def enrolRequest (f : EnrolFields) (s : State) : Answer :=
  if enrolEncodingOk s.segment f = false then refuse s .badValue
  else if enrolPrimaryOk (readRoute s.segment f.primary) = false
      ∨ enrolAlternateOk (readRoute s.segment f.alternate) = false then
    refuse s .badRoute
  else
    match addrOf s.segment f.addr, classOf f.cls with
    | some a, some cls =>
      match enrolRefusal f a s, s.enrolCoupler a f.fixedCoupler, priorityOf f.priority with
      | none, some coupler, some p =>
        let r := newRecord f (lowestFree 0 (s.table.map (·.slot))) a cls coupler s.segment
        let (s', code) := enrolRecord r p s
        answerWith s' code (s'.enrolContent a)
      | some code, _, _ => refuse s code
      | none, none, _ => refuse s .noRoute
      | none, some _, none => refuse s .badValue
    | _, _ => refuse s .badValue

/-- ENROL (R29 to R31). -/
def execEnrol (fields : EnrolFields) (s : State) : Host.Outcome State Fault Refusal :=
  .next ((enrolRequest fields s).reply 0x05)

/-! ## AMEND (R32 to R36) -/

/-- A one-byte change left out is 0xFF (R183). -/
def changeOk (ok : Byte → Bool) (b : Byte) : Bool := b == 0xFF || ok b

/-- The fixed coupler of AMEND: A, B, C, BRIDGED, 0xFE unchanged or 0xFF release (R183). -/
def amendCouplerOk (b : Byte) : Bool := b == 0xFE || b == 0xFF || (couplerOf b).isSome

/-- The fields of AMEND other than the hop counts keep the encodings of R183 (R175). -/
def amendEncodingOk (dflt : Segment) (f : AmendFields) : Bool :=
  (addrOf dflt f.addr).isSome && changeOk (fun b => (classOf b).isSome) f.cls && changeOk flagOk f.enforce
    && changeOk flagOk f.pinned && amendCouplerOk f.fixedCoupler
    && (decide (f.groups.count.toNat ≤ 4) || f.groups.count == 0xFF)
    && (readRoute dflt f.primary).addressesOk && (readRoute dflt f.alternate).addressesOk

/-- A primary route field of AMEND is a route or 0xFF, unchanged (R183). -/
def amendPrimaryOk (r : RouteRead) : Bool := r.hops?.isSome || r == .codeFF

/-- An alternate route field of AMEND is a route, 0xFE unchanged or 0xFF removed (R183). -/
def amendAlternateOk (r : RouteRead) : Bool := r.hops?.isSome || r == .codeFE || r == .codeFF

/-- The group list an AMEND carries. -/
def amendNewGroups (f : AmendFields) : Option (List Group) :=
  if f.groups.count = 0xFF then none else some (groupsOf f.groups)

/-- The pinned flag an AMEND carries. -/
def amendNewPinned (f : AmendFields) : Option Bool := if f.pinned = 0xFF then none else some (flagSet f.pinned)

/-- The fields of AMEND lie in their ranges (R32). -/
def amendRangesOk (f : AmendFields) : Bool :=
  (f.groups.count == 0xFF || groupsInRange f.groups) && changeOk (fun b => (noticeGroupOf b).isSome) f.noticeGroup
    && (priorityOf f.priority).isSome

/-- The checks of AMEND after NO_SUCH_ENDPOINT, in the order of R32 and R29. -/
def amendRefusal (f : AmendFields) (r : Record) (s : State) : Option ResultCode :=
  let primary := readRoute s.segment f.primary
  let alternate := readRoute s.segment f.alternate
  if r.inFlight then some .inFlight
  else if amendRangesOk f = false then some .badValue
  else if optRouteAllowed r.addr primary.hops? = false ∨ optRouteAllowed r.addr alternate.hops? = false then
    some .badRoute
  else if amendNewPinned f = some true ∧ r.pinned = false ∧ 120 ≤ s.pinCount then some .pinLimit
  else if f.fixedCoupler = 0xFF ∧ s.decodeCoupler r.addr = none then some .noRoute
  else none

/-- A route change of AMEND stored, with the failure count of a REACHABLE record returned to 0 (R33). -/
def amendRouted (f : AmendFields) (dflt : Segment) (r : Record) : Record :=
  let primary := (readRoute dflt f.primary).hops?
  let alternate := readRoute dflt f.alternate
  let carries := primary.isSome || alternate.hops?.isSome || alternate == .codeFF
  { r with
    primary := primary.getD r.primary
    alternate := if alternate = .codeFE then r.alternate else alternate.hops?
    failures := if carries = true ∧ r.reach = .reachable then 0 else r.failures }

/-- The AMEND carries a route (R33). -/
def amendCarriesRoute (f : AmendFields) (dflt : Segment) : Bool :=
  readRoute dflt f.primary != .codeFF || readRoute dflt f.alternate != .codeFE

/-- A change of the fixed coupler (R33): set, or released and decoded afresh. -/
def amendCoupled (f : AmendFields) (found : Option Coupler) (r : Record) : Record :=
  match couplerOf f.fixedCoupler with
  | some c => { r with coupler := c, source := .fixed, redecodeDue := false }
  | none => if f.fixedCoupler = 0xFF then r.redecoded found else r

/-- Replaces the route that a RETRY entry of the record carries (R33, R88). -/
def Entry.rerouted (a : Addr) (route : List Addr) (e : Entry) : Entry :=
  match e.origin with
  | .retry _ => if e.isFor a then { e with origin := .retry route } else e
  | .request | .plan | .overrideEnd | .repair => e

/-- The retry entry's new route, by the failure count as it now stands (R33). -/
def rerouteRetry (a : Addr) (s : State) : State :=
  match s.lookup a with
  | none => s
  | some r =>
    { s with
      urgent := s.urgent.map (Entry.rerouted a (r.routeFor s.attempts))
      normal := s.normal.map (Entry.rerouted a (r.routeFor s.attempts)) }

/-- R33: routes and coupler, with the enforce flag, which no rule ties to anything else. -/
def amendRoutes (f : AmendFields) (a : Addr) (s : State) : State :=
  let stored := s.updRecord a fun r =>
    amendCoupled f (s.decodeCoupler a)
      { amendRouted f s.segment r with enforce := if f.enforce = 0xFF then r.enforce else flagSet f.enforce }
  if amendCarriesRoute f s.segment then rerouteRetry a stored else stored

/-- A change of the intended list or of the pinned flag, stored (R34). -/
def amendRegrouped (f : AmendFields) (r : Record) : Record :=
  { r with intended := (amendNewGroups f).getD r.intended, pinned := (amendNewPinned f).getD r.pinned }

/-- A cover GROUP(g) that the new list or the new flag takes away (R34). -/
def Record.groupCoverLost (r : Record) : Bool :=
  match r.image with
  | .pending (.group g) => r.pinned || !r.intended.contains g
  | .pending .ownEntry | .pending .inFlight | .pending .refresh => false
  | .none | .unknown | .confirmed | .shared => false

/-- R34: the lists, and the new cover of a record that has lost its group's. -/
def amendGroups (f : AmendFields) (a : Addr) (priority : Nat) (s : State) : State :=
  let stored := s.updRecord a (amendRegrouped f)
  match stored.lookup a with
  | none => stored
  | some r =>
    if r.groupCoverLost then
      (placeDelivery a priority .request (stored.updRecord a fun x => { x with mark := none })).1
    else stored

/-- R36: the notice group, with the asserted conditions moved to its sources. -/
def amendNoticeGroup (f : AmendFields) (a : Addr) (s : State) : State :=
  match noticeGroupOf f.noticeGroup with
  | none => s
  | some n => s.changeRecord a fun r => { r with noticeGroup := n }

/-- IMMEDIATE to DEFERRED: an own DELIVER entry goes, and its cover with it (R35; a POLL entry stays, and a record
covered by it keeps that cover, log entry 15). -/
def becomeDeferred (a : Addr) (s : State) : State :=
  match s.ownEntry a with
  | none => s
  | some (_, e) =>
    if e.isDeliver then
      (s.dropEntries (Entry.isFor a)).updRecord a fun r =>
        if r.image = .pending .ownEntry then r.covered .refresh else r
    else s

/-- DEFERRED to IMMEDIATE: a REACHABLE record that waits for refresh gets an own entry, or QUEUE_FULL rises (R35). -/
def becomeImmediate (a : Addr) (priority : Nat) (s : State) : State :=
  match s.lookup a with
  | none => s
  | some r =>
    if r.image = .pending .refresh ∧ r.reach = .reachable then
      if s.hasRoom (queueFor priority) then s.pushEntry a priority else s.countQueueFull
    else s

/-- What a change to PASS clears (R35). -/
def Record.madePass (r : Record) : Record :=
  { r with
    desired := none, override := none, mark := none, mismatch := false, image := .none
    revision := if r.desired.isSome then r.revision + 1 else r.revision }

/-- What a change from PASS gives (R35). -/
def Record.leftPass (r : Record) : Record := { r with image := .unknown, desired := none }

/-- R35: the change of class, from the old one to the new one. -/
def amendClass (a : Addr) (old new : EndpointClass) (priority : Nat) (s : State) : State :=
  let stored := s.updRecord a fun r => { r with cls := new }
  match old, new with
  | .immediate, .deferred => becomeDeferred a stored
  | .deferred, .immediate => becomeImmediate a priority stored
  | .immediate, .pass | .deferred, .pass =>
    (stored.dropEntries (Entry.isFor a)).changeRecord a Record.madePass
  | .pass, .immediate | .pass, .deferred =>
    (stored.dropEntries (Entry.isFor a)).updRecord a Record.leftPass
  | .immediate, .immediate | .deferred, .deferred | .pass, .pass => stored

/-- All the changes of an AMEND together, the class last (R32 to R36). -/
def amendRecord (f : AmendFields) (r : Record) (priority : Nat) (s : State) : State :=
  let kept := amendNoticeGroup f r.addr (amendGroups f r.addr priority (amendRoutes f r.addr s))
  amendClass r.addr r.cls ((classOf f.cls).getD r.cls) priority kept

/-- The reply content of AMEND (R32): image state, cover, coupler, source. -/
def State.amendContent (s : State) (a : Addr) : List Byte :=
  match s.lookup a with
  | none => []
  | some r => n1 r.image.code ++ r.image.coverBytes ++ n1 r.coupler.code ++ n1 r.source.code

/-- The AMEND request (R32 to R36; encodings first, R175). -/
def amendRequest (f : AmendFields) (s : State) : Answer :=
  if amendEncodingOk s.segment f = false then refuse s .badValue
  else if amendPrimaryOk (readRoute s.segment f.primary) = false
      ∨ amendAlternateOk (readRoute s.segment f.alternate) = false then
    refuse s .badRoute
  else
    match addrOf s.segment f.addr with
    | none => refuse s .badValue
    | some a =>
      match s.lookup a with
      | none => refuse s .noSuchEndpoint
      | some r =>
        match amendRefusal f r s, priorityOf f.priority with
        | none, some p =>
          let s' := amendRecord f r p s
          answerWith s' .ok (s'.amendContent a)
        | some code, _ => refuse s code
        | none, none => refuse s .badValue

/-- AMEND (R32 to R36). -/
def execAmend (fields : AmendFields) (s : State) : Host.Outcome State Fault Refusal :=
  .next ((amendRequest fields s).reply 0x06)

/-! ## RETIRE and QUERY (R37, R38) -/

/-- The record leaves the table, its conditions fall and its entry goes (R37). -/
def retireRecord (a : Addr) (s : State) : State :=
  let cleared := (s.changeRecord a Record.withoutConditions).dropEntries (Entry.isFor a)
  { cleared with table := cleared.table.filter fun r => r.addr != a }

/-- The RETIRE request (R37). -/
def retireRequest (addr : Half) (s : State) : Answer :=
  match addrOf s.segment addr with
  | none => refuse s .badValue
  | some a =>
    match s.lookup a with
    | none => refuse s .noSuchEndpoint
    | some r => if r.inFlight then refuse s .inFlight else answerWith (retireRecord a s) .ok []

/-- RETIRE (R37). -/
def execRetire (addr : Half) (s : State) : Host.Outcome State Fault Refusal := .next ((retireRequest addr s).reply 0x07)

/-- The QUERY request (R38, R186). -/
def queryRequest (addr : Half) (s : State) : Answer :=
  match addrOf s.segment addr with
  | none => refuse s .badValue
  | some a =>
    match s.lookup a with
    | none => refuse s .noSuchEndpoint
    | some r => answerWith s .ok (queryContent r (s.ownEntry a))

/-- QUERY (R38). -/
def execQuery (addr : Half) (s : State) : Host.Outcome State Fault Refusal := .next ((queryRequest addr s).reply 0x08)

end Sys2Proof.Machine
end

