-- ==== Sys2Proof/Machine/Arbiter.lean ====
section
/-! DEFINITION. The slot boundary: stages, staged line parameters and the Line Arbiter's choice and launch (R8, R93 to
R103, R106, R107). -/

namespace Sys2Proof.Machine

/-! ## Staged line parameters (R102, R103) -/

/-- A staged value becomes the active one. -/
def Staged.apply (x : Staged α) : Staged α := { active := x.staged.getD x.active, staged := none }

/-- All staged values become active together (R103). -/
def Arbiter.applyStaged (x : Arbiter) : Arbiter :=
  { x with slotHc := x.slotHc.apply, pipeline := x.pipeline.apply, guard := x.guard.apply }

/-- A staged value waits (R98). -/
def Arbiter.stagedWaits (x : Arbiter) : Bool :=
  x.slotHc.staged.isSome || x.pipeline.staged.isSome || x.guard.staged.isSome

/-! ## Free and compatible (R95, R98) -/

/-- The free-at value of a phase. -/
def Arbiter.freeAt (x : Arbiter) : Phase → Option Boundary
  | .a => x.freeA
  | .b => x.freeB
  | .c => x.freeC

/-- A transaction in flight holds the phase (R92, R101). -/
def State.held (s : State) (p : Phase) : Bool := s.contexts.any fun c => c.coupler.phases.contains p

/-- A phase is free: no holder, and the boundary is not below its free-at value (R10, R95). -/
def State.phaseFree (s : State) (p : Phase) : Bool :=
  !s.held p &&
    match s.arbiter.freeAt p with
    | none => true
    | some b => decide (b ≤ s.boundary)

/-- A coupler is free: BRIDGED needs all three phases free (R95). -/
def State.couplerFree (s : State) (c : Coupler) : Bool := c.phases.all s.phaseFree

/-- A candidate is compatible with what is in flight (R98). -/
def State.compatible (s : State) (scrub : Bool) (c : Coupler) : Bool :=
  match s.contexts with
  | [] => true
  | [x] =>
    s.arbiter.pipeline.active && !s.arbiter.stagedWaits && !x.job.isScrub && x.coupler != .bridged && !scrub
      && c != .bridged && c != x.coupler
  | _ :: _ :: _ => false

/-- The coupler test of a candidate. -/
def State.admits (s : State) (scrub : Bool) (c : Coupler) : Bool := s.couplerFree c && s.compatible scrub c

/-! ## Launch (R53, R100, R106, R107) -/

/-- The Endpoint Table takes a launch: any own entry is gone, the record is in flight, a PENDING one has cover
IN_FLIGHT (R53). -/
def Record.launched (r : Record) : Record :=
  { r with inFlight := true, image := if r.isPending then .pending .inFlight else r.image }

/-- The launch of a transaction: the next sequence, its context, and its first frame (R106, R107). -/
def State.launch (s : State) (job : Job) (src : Source) (coupler : Coupler) (route : List Addr) (priority : Nat) :
    State :=
  let fresh : Context :=
    { job := job, source := src, coupler := coupler, route := route, seq := s.lineSeq, stage := .outbound
      remaining := 0, priority := priority, orphaned := false }
  let c := { fresh with remaining := fresh.length }
  { s with
    contexts := s.contexts ++ [c]
    lineSeq := s.lineSeq + 1
    transmitter := some { coupler := coupler, bytes := c.outboundFrame } }

/-- A launch for a record (R53). -/
def State.launchFor (s : State) (r : Record) (job : Job) (src : Source) (route : List Addr) (priority : Nat) :
    State :=
  ((s.launch job src r.coupler route priority).dropEntries (Entry.isFor r.addr)).updRecord r.addr Record.launched

/-- The SET of a record as it stands (R100). -/
def Record.setJob (r : Record) : Job :=
  .set r.addr r.revision (r.desired.getD Config.undefinedTariff) r.effectiveList

/-- The transaction an entry launches for its record (R86, R100); none for a GROUP entry. -/
def Work.job? (w : Work) (r : Record) : Option Job :=
  match w with
  | .deliver _ => some r.setJob
  | .poll _ => some (.poll r.addr r.revision)
  | .passDeliver _ t => some (.passSet r.addr t [])
  | .group _ => none

/-- The route of an attempt from an entry: the one a RETRY entry carries, else by R114 (R100). -/
def Entry.route (e : Entry) (attempts : Nat) (r : Record) : List Addr :=
  match e.origin with
  | .retry l => l
  | .request | .plan | .overrideEnd | .repair => r.routeFor attempts

/-- The source of a transaction launched from a queue (R107). -/
def QueueId.source : QueueId → Source
  | .urgent => .urgent
  | .normal => .normal

/-- The launch of a group frame (R75, R76). -/
def State.launchGroup (s : State) (g : Group) (src : Source) (priority : Nat) : State :=
  let t := s.groups[g].tariff.getD Config.undefinedTariff
  (s.launch (.group g t s.groups[g].repeats) src (groupCoupler (s.members g)) [] priority).updAll
    (Record.marked g t s.lineSeq)

/-- The launch of a queue's candidate, its entry already out of the queue (R100). -/
def State.launchEntry (s : State) (q : QueueId) (e : Entry) : State :=
  match e.work with
  | .group g => s.launchGroup g q.source e.priority
  | .deliver a | .poll a | .passDeliver a _ =>
    match s.lookup a with
    | none => s
    | some r =>
      match e.work.job? r with
      | none => s
      | some j => s.launchFor r j q.source (e.route s.attempts r) e.priority

/-! ## The queues (R96) -/

/-- What the tests of R96 make of an entry. -/
inductive Verdict where
  | candidate | passedOver | removed
  deriving DecidableEq, Repr

/-- The tests of R96, in their order. -/
def State.weighEntry (s : State) (e : Entry) : Verdict :=
  if e.priority ≤ s.arbiter.lineMask then .passedOver
  else
    match e.work with
    | .group g =>
      if (s.frameOf g).isSome then .passedOver
      else if (s.members g).isEmpty then .removed
      else if s.admits false (groupCoupler (s.members g)) then .candidate
      else .passedOver
    | .deliver a | .poll a | .passDeliver a _ =>
      match s.lookup a with
      | none => .passedOver
      | some r => if s.admits false r.coupler then .candidate else .passedOver

/-- A scan of a queue from its head: the first candidate, and the queue without it and without the GROUP entries
removed for want of members (R77, R96). -/
def State.scan (s : State) : List Entry → Option Entry × List Entry
  | [] => (none, [])
  | e :: es =>
    match s.weighEntry e with
    | .candidate => (some e, es)
    | .removed => s.scan es
    | .passedOver =>
      let (found, rest) := s.scan es
      (found, e :: rest)

/-- Writes the entries of a queue. -/
def State.setQueue (s : State) (q : QueueId) (l : List Entry) : State :=
  match q with
  | .urgent => { s with urgent := l }
  | .normal => { s with normal := l }

/-- What one order of R94 did. -/
structure Weighing where
  state : State
  launched : Bool
  deriving DecidableEq, Repr

/-- Orders 2 and 4 of R94: a queue is scanned and its candidate launched. -/
def weighQueue (q : QueueId) (s : State) : Weighing :=
  let (found, rest) := s.scan (s.queue q)
  match found with
  | none => { state := s.setQueue q rest, launched := false }
  | some e => { state := (s.setQueue q rest).launchEntry q e, launched := true }

/-! ## Refresh (R94, R97, R128 to R130) -/

/-- What a refresh sends (R130). -/
def refreshJob (kind : RefreshKind) (r : Record) : Job :=
  match r.desired, kind with
  | none, _ => .poll r.addr r.revision
  | some _, .reassert => r.setJob
  | some _, .scrub => .scrub r.addr r.revision none

/-- Launches a refresh, with the reservation of a scrub (R99, R130). -/
def State.launchRefresh (s : State) (r : Record) (job : Job) : State :=
  let route := r.routeFor s.attempts
  let reserved :=
    if job.isScrub then some (s.boundary + BitVec.ofNat 32 (2 + 2 * route.length), s.lineSeq)
    else s.arbiter.reservation
  let marked := { s with refresh := { s.refresh with inFlight := some r.slot }
                         arbiter := { s.arbiter with reservation := reserved } }
  marked.launchFor r job .refresh route s.refresh.priority

/-- Order 3 of R94: the refresh candidate, an empty refresh, or nothing (R97, R128, R129). -/
def weighRefresh (s : State) : Weighing :=
  if s.offersRefresh = false then { state := s, launched := false }
  else
    match s.refreshTarget with
    | none => { state := s.emptyRefresh, launched := false }
    | some r =>
      let job := refreshJob s.refresh.kind r
      if s.admits job.isScrub r.coupler then { state := s.launchRefresh r job, launched := true }
      else { state := s, launched := false }

/-! ## The weighing (R93, R94) -/

/-- The scrub extension that the reservation names for this boundary (R94, R99). -/
def State.extensionDue (s : State) (c : Context) : Bool :=
  c.job.isScrub && !c.job.inPollPart && s.arbiter.reservation == some (s.boundary, c.seq)

/-- The transmitter is busy: a group frame in flight has a slot that begins here (R93). -/
def State.transmitterBusy (s : State) : Bool := s.contexts.any fun c => c.job.group?.isSome

/-- Orders 2 to 4 of R94. -/
def weighFree (s : State) : State :=
  let urgent := weighQueue .urgent s
  if urgent.launched then urgent.state
  else
    let refresh := weighRefresh urgent.state
    if refresh.launched then refresh.state else (weighQueue .normal refresh.state).state

/-- The slot of a scrub's extension begins: the SET goes out and the reservation is cleared (R99, R134). -/
def State.beginExtension (s : State) (c : Context) : State :=
  { s with
    transmitter := some { coupler := c.coupler, bytes := c.outboundFrame }
    arbiter := { s.arbiter with reservation := none } }

/-- The arbiter's choice at a boundary (R93, R94). -/
def weigh (s : State) : State :=
  match s.contexts.find? s.extensionDue with
  | some c => s.beginExtension c
  | none => if s.transmitterBusy then s else weighFree s

/-! ## The boundary -/

/-- The line frame of a repeat: the group frame with its index (R111). -/
def Context.repeatFrame? (c : Context) : Option (List Byte) :=
  match c.job with
  | .group g t _ => some (groupFrame c.seq g t (c.length - c.remaining))
  | .set _ _ _ _ | .poll _ _ | .scrub _ _ _ | .passSet _ _ _ => none

/-- What the transmitter sends in the slot that begins, before the arbiter has chosen: the copy of a group frame in
flight, if there is one (R9, R111). -/
def repeatSending (cs : List Context) : Option Sending :=
  cs.findSome? fun c => c.repeatFrame?.map fun b => { coupler := c.coupler, bytes := b }

/-- Every end that is due is taken, in launch order (R109). -/
def takeEnds : Nat → State → State
  | 0, s => s
  | n + 1, s => takeEnds n (takeNextEnd s)

/-- Staged values apply at a boundary at which nothing is in flight (R103). -/
def State.applyStagedIfQuiet (s : State) : State :=
  if s.contexts.isEmpty then { s with arbiter := s.arbiter.applyStaged } else s

/-- The new slot: its length, quiet receivers, the stages of what is in flight (R8, R22, R108, R111). -/
def State.beginSlot (s : State) : State :=
  let moved := s.contexts.map fun c => if s.extensionDue c then c else c.advanced
  { s with
    mains := { s.mains with
      boundaryDue := false
      grid := s.mains.grid.map fun g => { g with length := s.arbiter.slotHc.active } }
    receivers := Receivers.quiet
    contexts := moved
    transmitter := repeatSending moved }

/-- The slot boundary event (R93). -/
def takeBoundary (s : State) : State :=
  if s.mains.boundaryDue then weigh (takeEnds s.contexts.length s).applyStagedIfQuiet.beginSlot else s

/-- SLOT_BOUNDARY (R93). -/
def execSlotBoundary (s : State) : Host.Outcome State Fault Refusal := .next (takeBoundary s)

end Sys2Proof.Machine
end

