-- ==== Sys2Proof/Machine/Notices.lean ====
section
/-! DEFINITION. The Notice Controller's requests: NOTICE_MAP_SET, NOTICE_LINE_SET, NOTICE_DONE and NOTICE_STATUS (R163,
R166, R168, R171), and what RESTART does to it (R170). -/

namespace Sys2Proof.Machine

/-! ## NOTICE_MAP_SET (R163) -/

/-- The endpoint source of a kind 0..5 and a notice group. -/
def endpointSource (kind : Nat) (n : NoticeGroup) : SourceId := Fin.ofNat 50 (kind * 8 + n.val)

/-- The sources a request names: one, the eight of a kind (0xFF), or a feeder source, for which the notice group is
disregarded (R163, R183). -/
def namedSources (kind group : Byte) : Option (List SourceId) :=
  if kind.toNat < 6 then
    if group = 0xFF then some ((List.finRange 8).map (endpointSource kind.toNat))
    else (noticeGroupOf group).map fun n => [endpointSource kind.toNat n]
  else if kind = 6 then some [48]
  else if kind = 7 then some [49]
  else none

/-- A line field: 0..19, or 0xFF for UNMAPPED (R183). -/
def mapLineOf (b : Byte) : Option (Option Line) := if b = 0xFF then some none else (lineOf b).map some

/-- The lines that a map change evaluates: those the sources leave and the one they join, in line-number order
(R163, log entry 11). -/
def State.touchedLines (s : State) (sources : List SourceId) (target : Option Line) : List Line :=
  (List.finRange 20).filter fun l => target == some l || sources.any fun i => s.sourceMap[i] == some l

/-- The map with the sources moved (R163). -/
def State.remapped (s : State) (sources : List SourceId) (target : Option Line) : State :=
  { s with sourceMap := sources.foldl (fun (m : Vector (Option Line) 50) (i : SourceId) => m.set i.val target) s.sourceMap }

/-- One line evaluated after a map change: a LEVEL line is tested, an EDGE line's rise is taken (R163, R165,
R167). -/
def evaluateLine (before : State) (moved : State) (s : State) (l : Line) : State :=
  if s.lines[l].edge then
    if before.lineLevel l = false ∧ moved.lineLevel l = true then s.riseEdge l else s
  else s.testLine l

/-- The NOTICE_MAP_SET request (R163). -/
def noticeMapSetRequest (kind group line : Byte) (s : State) : Answer :=
  match namedSources kind group, mapLineOf line with
  | some sources, some target =>
    let lines := s.touchedLines sources target
    let moved := s.remapped sources target
    let s' := lines.foldl (evaluateLine s moved) moved
    answerWith s' .ok (n1 lines.length ++ lines.flatMap fun l => flagByte (s'.lineLevel l))
  | _, _ => refuse s .badValue

/-- NOTICE_MAP_SET (R163). -/
def execNoticeMapSet (kind group line : Byte) (s : State) : Host.Outcome State Fault Refusal :=
  .next ((noticeMapSetRequest kind group line s).reply 0x19)

/-! ## NOTICE_LINE_SET (R168) -/

/-- The tag field: 0..255, or 0xFFFF for unchanged (R183). -/
def tagOk (tag : Half) : Bool := tag == 0xFFFF || decide (tag.toNat < 256)

/-- The settings given, written together; a change to EDGE clears the awaiting flag (R168). -/
def NoticeLine.setTo (masked mode : Byte) (tag : Half) (x : NoticeLine) : NoticeLine :=
  let edge := if mode = 0xFF then x.edge else flagSet mode
  { masked := if masked = 0xFF then x.masked else flagSet masked
    edge := edge
    tag := if tag = 0xFFFF then x.tag else tag.setWidth 8
    awaiting := x.awaiting && !edge }

/-- The line's settings, level and awaiting flag (R168). -/
def State.lineContent (s : State) (l : Line) : List Byte :=
  flagByte s.lines[l].masked ++ flagByte s.lines[l].edge ++ [s.lines[l].tag] ++ flagByte (s.lineLevel l)
    ++ flagByte s.lines[l].awaiting

/-- The NOTICE_LINE_SET request (R168). -/
def noticeLineSetRequest (line masked mode : Byte) (tag : Half) (s : State) : Answer :=
  match lineOf line with
  | none => refuse s .badValue
  | some l =>
    if (masked = 0xFF ∨ flagOk masked = true) ∧ (mode = 0xFF ∨ flagOk mode = true) ∧ tagOk tag = true then
      let written := s.setLine l (NoticeLine.setTo masked mode tag)
      let s' := if written.lines[l].edge then written else written.testLine l
      answerWith s' .ok (s'.lineContent l)
    else refuse s .badValue

/-- NOTICE_LINE_SET (R168). -/
def execNoticeLineSet (line masked mode : Byte) (tag : Half) (s : State) : Host.Outcome State Fault Refusal :=
  .next ((noticeLineSetRequest line masked mode tag s).reply 0x1A)

/-! ## NOTICE_DONE (R166) -/

/-- The awaiting lines with the tag, in line-number order (R166). -/
def State.awaitingWith (s : State) (tag : Byte) : List Line :=
  (List.finRange 20).filter fun l => s.lines[l].awaiting && s.lines[l].tag == tag

/-- Clears the awaiting flag of lines. -/
def State.clearAwaiting (s : State) (ls : List Line) : State :=
  ls.foldl (fun t l => t.setLine l fun x => { x with awaiting := false }) s

/-- The NOTICE_DONE request (R166): the number cleared, and the number of new notices (log entry 22). -/
def noticeDoneRequest (tag : Half) (s : State) : Answer :=
  if tag.toNat < 256 then
    let ls := s.awaitingWith (tag.setWidth 8)
    let s' := ls.foldl State.testLine (s.clearAwaiting ls)
    answerWith s' .ok (n1 ls.length ++ n1 (s'.fifo.length - s.fifo.length))
  else refuse s .badValue

/-- NOTICE_DONE (R166). -/
def execNoticeDone (tag : Half) (s : State) : Host.Outcome State Fault Refusal :=
  .next ((noticeDoneRequest tag s).reply 0x1B)

/-! ## NOTICE_STATUS (R171, R184) -/

/-- The two bytes of a line (R184), the bits it does not name 0 (log entry 39). -/
def State.lineBytes (s : State) (l : Line) : List Byte :=
  let x := s.lines[l]
  n1 (boolCode (s.noticeWaiting l) * 16 + boolCode x.awaiting * 8 + boolCode x.edge * 4 + boolCode x.masked * 2
    + boolCode (s.lineLevel l)) ++ [x.tag]

/-- The line of a source, or 0xFF (R171). -/
def State.sourceLineBytes (s : State) (i : SourceId) : List Byte := opt1 (s.sourceMap[i].map (·.val))

/-- The count of an endpoint source, or the level of a feeder source (R171). -/
def State.sourceCountBytes (s : State) (i : SourceId) : List Byte :=
  if h : i.val < 48 then n2 s.counts[i.val] else flagByte (s.sourceLevel i)

/-- The NOTICE_STATUS request (R171), its fields in the order of R179: lines, sources, counts, FIFO depth. The
sequence of the 50 sources, kind by kind and in each kind by notice group, then MAINS_DOWN and REFRESH_BACKLOG, is log
entry 43. -/
def noticeStatusRequest (s : State) : Answer :=
  answerWith s .ok
    ((List.finRange 20).flatMap s.lineBytes ++ (List.finRange 50).flatMap s.sourceLineBytes
      ++ (List.finRange 50).flatMap s.sourceCountBytes ++ n1 s.fifo.length)

/-- NOTICE_STATUS (R171). -/
def execNoticeStatus (s : State) : Host.Outcome State Fault Refusal := .next ((noticeStatusRequest s).reply 0x1C)

/-! ## RESTART (R170) -/

/-- The FIFO is emptied, every awaiting flag cleared and every LEVEL line tested (R170). -/
def State.restartNotices (s : State) : State :=
  let cleared := s.lines.map fun x => { x with awaiting := false }
  { s with fifo := [], lines := cleared }.testLevelLines

end Sys2Proof.Machine
end

