-- ==== Sys2Proof/Machine/Overrides.lean ====
section
/-! DEFINITION. Overrides: their start on an endpoint and on a group (R150 to R153), their end (R154, R155) and
END_OVERRIDE (R156). -/

namespace Sys2Proof.Machine

/-! ## Starting an override -/

/-- Minutes 1..1440 (R151). -/
def minutesOf (m : Half) : Option Nat := if 1 ≤ m.toNat ∧ m.toNat ≤ 1440 then some m.toNat else none

/-- The override end m minutes of uptime from now, modulo 2^32 (R141, R151). -/
def State.overrideEnd (s : State) (minutes : Nat) : Uptime := s.timebase.uptime + BitVec.ofNat 32 (60 * minutes)

/-- The saved tariff of a record: the running override's, else its desired tariff (R151). -/
def Record.savedOr (r : Record) (d : Tariff) : Tariff :=
  match r.override with
  | some o => o.saved
  | none => d

/-- Writes the override fields of a record whose desired tariff is d: a running override keeps its saved tariff
(R151). -/
def Record.overridden (endsAt : Uptime) (priority : Nat) (d : Tariff) (r : Record) : Record :=
  { r with override := some { saved := r.savedOr d, endsAt := endsAt, priority := priority } }

/-- The outcome of OVERRIDE for one record. -/
structure OverrideStart where
  state : State
  code : ResultCode
  skipped : Bool
  deriving DecidableEq, Repr

/-- OVERRIDE of one record with checked values (R151): skipped when PASS or without a desired tariff. -/
def overrideOne (a : Addr) (t : Tariff) (minutes priority : Nat) (origin : Origin) (s : State) : OverrideStart :=
  match s.lookup a with
  | none => { state := s, code := .noSuchEndpoint, skipped := true }
  | some r =>
    match r.cls, r.desired with
    | .pass, _ => { state := s, code := .unchanged, skipped := true }
    | .immediate, none => { state := s, code := .unchanged, skipped := true }
    | .deferred, none => { state := s, code := .unchanged, skipped := true }
    | .immediate, some d | .deferred, some d =>
      let written := s.updRecord a (·.overridden (s.overrideEnd minutes) priority d)
      if d = t ∧ r.image = .confirmed then { state := written, code := .unchanged, skipped := false }
      else
        let (s', code) := stateTariff a t priority origin written
        { state := s', code := code, skipped := false }

/-- The reply content of OVERRIDE of an endpoint: skipped, extended (else started), override end, saved tariff; the
skipped count alone when the record is skipped (log entry 22). -/
def overrideContent (before : Record) (after : Option Record) (skipped : Bool) : List Byte :=
  if skipped then n1 1
  else
    match after.bind (·.override) with
    | none => n1 0
    | some o => n1 0 ++ flagByte before.override.isSome ++ bytes4 o.endsAt ++ n1 o.saved.toNat

/-- The OVERRIDE request with an endpoint target (R151). -/
def overrideRequest (target : Half) (tariff : Byte) (minutes : Half) (priority : Byte) (s : State) : Answer :=
  match addrOf s.segment target, tariffOf tariff, minutesOf minutes, priorityOf priority with
  | some a, some t, some m, some p =>
    match s.lookup a with
    | none => refuse s .noSuchEndpoint
    | some r =>
      let x := overrideOne a t m p .request s
      answerWith x.state x.code (overrideContent r (x.state.lookup a) x.skipped)
  | _, _, _, _ => refuse s .badValue

/-- OVERRIDE of an endpoint (R151). -/
def execOverride (target : Half) (tariff : Byte) (minutes : Half) (priority : Byte) (s : State) :
    Host.Outcome State Fault Refusal :=
  .next ((overrideRequest target tariff minutes priority s).reply 0x0E)

/-! ## Group overrides (R152) -/

/-- The counts of a group override, beside those of the walk of R71. -/
structure GroupOverride where
  walk : MemberWalk
  started : Nat
  extended : Nat
  skipped : Nat
  deriving DecidableEq, Repr

/-- One member of a group override (R152). -/
def overrideMember (g : Group) (t : Tariff) (endsAt : Uptime) (priority : Nat) (x : GroupOverride) (r : Record) :
    GroupOverride :=
  match r.desired with
  | none => { x with skipped := x.skipped + 1 }
  | some d =>
    let written := { x.walk with state := x.walk.state.updRecord r.addr (·.overridden endsAt priority d) }
    { x with
      walk := memberTariff g t r written
      started := if r.override.isSome then x.started else x.started + 1
      extended := if r.override.isSome then x.extended + 1 else x.extended }

/-- What a group override did, with its result. -/
structure GroupOverrideSetting where
  done : GroupOverride
  code : ResultCode
  deriving DecidableEq, Repr

/-- OVERRIDE of a group with checked values (R152). -/
def overrideGroupTo (g : Group) (t : Tariff) (minutes priority : Nat) (origin : Origin) (s : State) :
    GroupOverrideSetting :=
  let written := s.setGroupTariff g t
  let start : GroupOverride := { walk := MemberWalk.start written, started := 0, extended := 0, skipped := 0 }
  match written.members g with
  | [] => { done := start, code := .noMembers }
  | r :: rs =>
    let x := (r :: rs).foldl (overrideMember g t (s.overrideEnd minutes) priority) start
    let (s', code) := settleGroup g priority origin x.walk.given x.walk.state
    { done := { x with walk := { x.walk with state := s' } }, code := code }

/-- The group a two-byte target names: its low byte, the high byte zero (R179, R183). -/
def targetGroup (target : Half) : Option Group :=
  if target.toNat < 256 then groupOf (target.setWidth 8) else none

/-- The OVERRIDE request with a group target (R152); its counts go with QUEUE_FULL too (R176). -/
def overrideGroupRequest (target : Half) (tariff : Byte) (minutes : Half) (priority : Byte) (s : State) : Answer :=
  match targetGroup target, tariffOf tariff, minutesOf minutes, priorityOf priority with
  | some g, some t, some m, some p =>
    let x := overrideGroupTo g t m p .request s
    { state := x.done.walk.state, code := x.code
      content := n2 x.done.started ++ n2 x.done.extended ++ n2 x.done.skipped ++ n2 x.done.walk.changed
        ++ n2 x.done.walk.unchanged }
  | _, _, _, _ => refuse s .badValue

/-- OVERRIDE of a group (R152). -/
def execOverrideGroup (target : Half) (tariff : Byte) (minutes : Half) (priority : Byte) (s : State) :
    Host.Outcome State Fault Refusal :=
  .next ((overrideGroupRequest target tariff minutes priority s).reply 0x0E)

/-! ## Ending an override (R155) -/

/-- An override end applied to the record with an address, with the result of the restoration (R155, R156);
UNCHANGED for a record without an override. -/
def endOverrideOf (a : Addr) (s : State) : State × ResultCode :=
  match s.lookup a with
  | none => (s, .noSuchEndpoint)
  | some r =>
    match r.override with
    | none => (s, .unchanged)
    | some o =>
      let cleared := s.updRecord a fun x => { x with desired := some o.saved, override := none }
      if r.desired = some o.saved then (cleared, .unchanged)
      else stateTariff a o.saved o.priority .overrideEnd cleared

/-- The END_OVERRIDE request with an endpoint target (R156). -/
def endOverrideRequest (target : Half) (s : State) : Answer :=
  match addrOf s.segment target with
  | none => refuse s .badValue
  | some a =>
    match s.lookup a with
    | none => refuse s .noSuchEndpoint
    | some _ =>
      let (s', code) := endOverrideOf a s
      answerWith s' code []

/-- END_OVERRIDE of an endpoint (R156). -/
def execEndOverride (target : Half) (s : State) : Host.Outcome State Fault Refusal :=
  .next ((endOverrideRequest target s).reply 0x0F)

/-- The counts of END_OVERRIDE of a group. -/
structure EndWalk where
  state : State
  ended : Nat
  queued : Nat
  held : Nat
  deriving DecidableEq, Repr

/-- One override ended in the walk over a group (R156): a delivery is queued where the result is QUEUED, and a record
is left with cover REFRESH where it is HELD_FOR_REFRESH (log entry 40). -/
def endMember (w : EndWalk) (r : Record) : EndWalk :=
  let (s', code) := endOverrideOf r.addr w.state
  { state := s', ended := w.ended + 1
    queued := if code = .queued then w.queued + 1 else w.queued
    held := if code = .heldForRefresh then w.held + 1 else w.held }

/-- END_OVERRIDE of a group with a checked number: none when no record lists it (R156). -/
def endOverridesOf (g : Group) (s : State) : Option EndWalk :=
  match s.listing g with
  | [] => none
  | r :: rs =>
    some (((r :: rs).filter fun x => x.override.isSome).foldl endMember
      { state := s, ended := 0, queued := 0, held := 0 })

/-- The END_OVERRIDE request with a group target (R156); the queues take at most 160 entries, so the deliveries queued
take one byte (R85, R184). -/
def endOverrideGroupRequest (target : Half) (s : State) : Answer :=
  match targetGroup target with
  | none => refuse s .badValue
  | some g =>
    match endOverridesOf g s with
    | none => answerWith s .noMembers []
    | some w => answerWith w.state .ok (n2 w.ended ++ n1 w.queued ++ n2 w.held)

/-- END_OVERRIDE of a group (R156). -/
def execEndOverrideGroup (target : Half) (s : State) : Host.Outcome State Fault Refusal :=
  .next ((endOverrideGroupRequest target s).reply 0x0F)

/-- The record's override end has been reached (R154). -/
def Record.overrideDue (now : Uptime) (r : Record) : Bool :=
  match r.override with
  | none => false
  | some o => o.endsAt == now

/-- The override ends that uptime has reached, taken in slot-index order (R154). -/
def takeOverrideEnds (s : State) : State :=
  ((s.table.filter (·.overrideDue s.timebase.uptime)).map (·.addr)).foldl (fun t a => (endOverrideOf a t).1) s

/-- OVERRIDE_END_DUE (R154, R155). -/
def execOverrideEndDue (s : State) : Host.Outcome State Fault Refusal := .next (takeOverrideEnds s)

end Sys2Proof.Machine
end

