-- ==== Sys2Proof/Machine/Plan.lean ====
section
/-! DEFINITION. The Timebase and the Plan Unit (R141 to R149): the second event, the feeder clock, due checks and
firings, PLAN_ADD, PLAN_REMOVE, PLAN_LIST and TIME_SET. -/

namespace Sys2Proof.Machine

/-! ## The clock (R141, R142) -/

/-- A clock position as one number, days and seconds compared together (R143, R144). -/
def Clock.stamp (c : Clock) : Nat := c.day * 86400 + c.second

/-- One second later; after day 65535 second 86399 comes day 0 second 0 (R142). -/
def Clock.next (c : Clock) : Clock :=
  if c.second < 86399 then { c with second := c.second + 1 }
  else if c.day < 65535 then { day := c.day + 1, second := 0 }
  else { day := 0, second := 0 }

/-- The next second wraps the clock: a backward setting, with no due check (R142). -/
def Clock.wraps (c : Clock) : Bool := decide (86399 ≤ c.second) && decide (65535 ≤ c.day)

/-! ## Firing (R148) -/

/-- A firing: the state it leaves, and whether it was a miss. -/
structure Firing where
  state : State
  missed : Bool
  deriving DecidableEq, Repr

/-- A walk over a range's units: the state and the units skipped. -/
structure RangeWalk where
  state : State
  skipped : Nat
  deriving DecidableEq, Repr

/-- OVERRIDE of one unit of a range (R148): the units R43 skips are skipped, and so is one without a desired
tariff. -/
def overrideUnit (t : Tariff) (minutes priority : Nat) (w : RangeWalk) (a : Addr) : RangeWalk :=
  if w.state.skipsUnit a then { w with skipped := w.skipped + 1 }
  else
    let x := overrideOne a t minutes priority .plan w.state
    { state := x.state, skipped := if x.skipped then w.skipped + 1 else w.skipped }

/-- END_OVERRIDE of one unit of a range (R148, R156). -/
def endOverrideUnit (w : RangeWalk) (a : Addr) : RangeWalk :=
  if w.state.skipsUnit a then { w with skipped := w.skipped + 1 }
  else { w with state := (endOverrideOf a w.state).1 }

/-- SET of a plan entry (R148). -/
def fireSet (t : Tariff) (priority : Nat) (target : PlanTarget) (s : State) : Firing :=
  match target with
  | .endpoint a => { state := (setOne a t priority .plan s).1, missed := (s.lookup a).isNone }
  | .group g =>
    let x := setGroupTo g t priority .plan s
    { state := x.walk.state, missed := decide (x.code = .noMembers) }
  | .range segment start count =>
    let (s', n) := setRangeWalk segment start count t priority .plan s
    { state := s', missed := decide (n.skipped = count) }

/-- OVERRIDE of a plan entry (R148). -/
def fireOverride (t : Tariff) (minutes priority : Nat) (target : PlanTarget) (s : State) : Firing :=
  match target with
  | .endpoint a => { state := (overrideOne a t minutes priority .plan s).state, missed := (s.lookup a).isNone }
  | .group g =>
    let x := overrideGroupTo g t minutes priority .plan s
    { state := x.done.walk.state, missed := decide (x.code = .noMembers) }
  | .range segment start count =>
    let w := (rangeAddrs segment start count).foldl (overrideUnit t minutes priority) { state := s, skipped := 0 }
    { state := w.state, missed := decide (w.skipped = count) }

/-- END_OVERRIDE of a plan entry (R148, R156). Its deliveries have the priority of the override and the origin of R155,
not the priority of the entry and the origin of R148: log entry 14. -/
def fireEndOverride (target : PlanTarget) (s : State) : Firing :=
  match target with
  | .endpoint a => { state := (endOverrideOf a s).1, missed := (s.lookup a).isNone }
  | .group g =>
    match endOverridesOf g s with
    | none => { state := s, missed := true }
    | some w => { state := w.state, missed := false }
  | .range segment start count =>
    let w := (rangeAddrs segment start count).foldl endOverrideUnit { state := s, skipped := 0 }
    { state := w.state, missed := decide (w.skipped = count) }

/-- An entry fires (R148); a miss is counted in PLAN_MISS. -/
def fireEntry (e : PlanEntry) (s : State) : State :=
  let x :=
    match e.action with
    | .set t => fireSet t e.priority e.target s
    | .override t m => fireOverride t m e.priority e.target s
    | .endOverride => fireEndOverride e.target s
  if x.missed then x.state.countPlanMiss else x.state

/-! ## The plan (R144, R149) -/

/-- Inserts an entry in order of due time, behind the entries with the same due time (R144). -/
def insertPlan (e : PlanEntry) : List PlanEntry → List PlanEntry
  | [] => [e]
  | x :: xs => if e.due.stamp < x.due.stamp then e :: x :: xs else x :: insertPlan e xs

/-- The due time of a DAILY entry carried forward by the fewest whole days that put it after the clock (R149). -/
def carriedDue (due now : Clock) : Clock :=
  { due with day := if now.second < due.second then now.day else now.day + 1 }

/-- What becomes of an entry that has fired: removed, or carried and re-placed (R149). -/
def replaceFired (now : Clock) (e : PlanEntry) (plan : List PlanEntry) : List PlanEntry :=
  if e.daily = true ∧ (carriedDue e.due now).day ≤ 65535 then
    insertPlan { e with due := carriedDue e.due now } plan
  else plan

/-- The due check of R147 at a clock position, at most n firings, with the number made. -/
def dueCheckAt (now : Clock) : Nat → State → State × Nat
  | 0, s => (s, 0)
  | n + 1, s =>
    match s.plan with
    | [] => (s, 0)
    | e :: rest =>
      if e.due.stamp ≤ now.stamp then
        let fired := fireEntry e s
        let (s', k) := dueCheckAt now n { fired with plan := replaceFired now e rest }
        (s', k + 1)
      else (s, 0)

/-- The due check of R147 with the clock as it stands: none with the clock UNSET. Each entry fires at most once, so
the entries of the plan bound the firings. -/
def dueCheck (s : State) : State × Nat :=
  match s.timebase.clock with
  | none => (s, 0)
  | some now => dueCheckAt now s.plan.length s

/-- The due check owed since the clock's advance is made (R142). -/
def takeDueCheck (s : State) : State :=
  if s.timebase.checkDue then
    (dueCheck { s with timebase := { s.timebase with checkDue := false } }).1
  else s

/-- PLAN_ENTRY_DUE (R142, R147 to R149). -/
def execPlanEntryDue (s : State) : Host.Outcome State Fault Refusal := .next (takeDueCheck s)

/-! ## The second event (R141) -/

/-- What the last second event left due is taken before the next one (log entry 3). -/
def takeSecondWork (s : State) : State := takeDueCheck (takeOverrideEnds (takeExpiry s))

/-- Uptime rises by 1, modulo 2^32; a RUNNING clock advances and owes a due check (R141, R142). -/
def Timebase.tick (t : Timebase) : Timebase :=
  match t.clock with
  | none => { t with uptime := t.uptime + 1 }
  | some c => { uptime := t.uptime + 1, clock := some c.next, checkDue := !c.wraps }

/-- SECOND_EVENT (R141, R142). -/
def execSecondEvent (s : State) : Host.Outcome State Fault Refusal :=
  let due := takeSecondWork s
  .next { due with timebase := due.timebase.tick }

/-! ## PLAN_ADD (R145) -/

/-- The target of PLAN_ADD: form and four bytes (R179); a short address or an absent segment is completed (R24). -/
def planTargetOf (dflt : Segment) (f : PlanFields) : Option PlanTarget :=
  if f.form = 0 then
    if f.t2 = 0 ∧ f.t3 = 0 then (addrOf dflt (f.t0 ++ f.t1)).map .endpoint else none
  else if f.form = 1 then
    if f.t1 = 0 ∧ f.t2 = 0 ∧ f.t3 = 0 then (groupOf f.t0).map .group else none
  else if f.form = 2 then
    let count := (f.t2 ++ f.t3).toNat
    if 1 ≤ count ∧ count ≤ 256 then (segmentOrDefault dflt f.t0).map fun g => .range g f.t1 count else none
  else none

/-- The action of PLAN_ADD, with the tariff and the minutes present exactly where R145 wants them. -/
def planActionOf (f : PlanFields) : Option PlanAction :=
  if f.action = 0 then
    if f.minutes = 0xFFFF then (tariffOf f.tariff).map .set else none
  else if f.action = 1 then
    match tariffOf f.tariff, minutesOf f.minutes with
    | some t, some m => some (.override t m)
    | _, _ => none
  else if f.action = 2 then
    if f.minutes = 0xFFFF ∧ f.tariff = 0xFF then some .endOverride else none
  else none

/-- The lowest id not in use (R145). -/
def freePlanId (plan : List PlanEntry) : Nat :=
  ((List.range 64).find? fun n => plan.all fun e => e.id != n).getD 64

/-- The PLAN_ADD reply: id, firings, still in plan, due time (R145, R179). -/
def planAddContent (id firings : Nat) (s : State) : List Byte :=
  match s.plan.find? fun e => e.id == id with
  | some e => n1 id ++ n1 firings ++ flagByte true ++ clockBytes (some e.due)
  | none =>
    n1 id ++ n1 firings ++ flagByte false
      ++ (List.range 5).map fun i => Config.removedEntryDue.extractLsb' (8 * (4 - i)) 8

/-- The PLAN_ADD request (R145), after a due check still owed (log entry 3). -/
def planAddRequest (f : PlanFields) (s : State) : Answer :=
  match planTargetOf s.segment f, planActionOf f, priorityOf f.priority with
  | some target, some action, some p =>
    if f.dueSecond.toNat ≤ 86399 ∧ flagOk f.daily = true then
      let ready := takeDueCheck s
      if 64 ≤ ready.plan.length then refuse s .planFull
      else
        let e : PlanEntry :=
          { id := freePlanId ready.plan, due := { day := f.dueDay.toNat, second := f.dueSecond.toNat }
            daily := flagSet f.daily, target := target, action := action, priority := p }
        let (s', k) := dueCheck { ready with plan := insertPlan e ready.plan }
        answerWith s' .ok (planAddContent e.id k s')
    else refuse s .badValue
  | _, _, _ => refuse s .badValue

/-- PLAN_ADD (R145). -/
def execPlanAdd (fields : PlanFields) (s : State) : Host.Outcome State Fault Refusal :=
  .next ((planAddRequest fields s).reply 0x14)

/-! ## PLAN_REMOVE and PLAN_LIST (R146) -/

/-- The PLAN_REMOVE request (R146). -/
def planRemoveRequest (id : Byte) (s : State) : Answer :=
  if 63 < id.toNat then refuse s .badValue
  else if s.plan.any fun e => e.id == id.toNat then
    answerWith { s with plan := s.plan.filter fun e => e.id != id.toNat } .ok []
  else refuse s .noSuchEntry

/-- PLAN_REMOVE (R146). -/
def execPlanRemove (id : Byte) (s : State) : Host.Outcome State Fault Refusal :=
  .next ((planRemoveRequest id s).reply 0x15)

/-- The target form of a plan entry: 0 endpoint, 1 group, 2 range (R184). -/
def PlanTarget.form : PlanTarget → Nat
  | .endpoint _ => 0
  | .group _ => 1
  | .range _ _ _ => 2

/-- The four target bytes of a plan entry (R179). -/
def PlanTarget.bytes : PlanTarget → List Byte
  | .endpoint a => fullAddr a ++ [0, 0]
  | .group g => n1 g.val ++ [0, 0, 0]
  | .range segment start count => n1 segment.toNat ++ [start] ++ n2 count

/-- The action code of a plan entry (R184). -/
def PlanAction.code : PlanAction → Nat
  | .set _ => 0
  | .override _ _ => 1
  | .endOverride => 2

/-- The tariff byte of a plan entry, 0xFF when absent. -/
def PlanAction.tariffByte : PlanAction → List Byte
  | .set t | .override t _ => n1 t.toNat
  | .endOverride => [0xFF]

/-- The eleven bits of minutes of a plan entry; open where the entry has none (log entry 23). -/
def PlanAction.minutesBits : PlanAction → BitVec 11
  | .override _ m => BitVec.ofNat 11 m
  | .set _ | .endOverride => Config.absentMinutes

/-- The 14 bytes of a listed entry (R179, R184); the bits between priority and minutes are 0 (log entry 39). -/
def PlanEntry.bytes (e : PlanEntry) : List Byte :=
  n1 e.id ++ clockBytes (some e.due) ++ n1 (boolCode e.daily * 128 + e.target.form * 16 + e.action.code)
    ++ e.target.bytes ++ e.action.tariffByte
    ++ bytes2 ((BitVec.ofNat 3 e.priority ++ (0 : BitVec 2)) ++ e.action.minutesBits)

/-- The PLAN_LIST request (R146). -/
def planListRequest (position : Byte) (s : State) : Answer :=
  if 63 < position.toNat then refuse s .badValue
  else
    answerWith s .ok
      (n1 s.plan.length ++ clockBytes s.timebase.clock
        ++ ((s.plan.drop position.toNat).take 16).flatMap (·.bytes))

/-- PLAN_LIST (R146). -/
def execPlanList (position : Byte) (s : State) : Host.Outcome State Fault Refusal :=
  .next ((planListRequest position s).reply 0x16)

/-! ## TIME_SET (R143) -/

/-- The direction of a setting: 0 FIRST, 1 FORWARD, 2 BACKWARD (R143, R183). -/
def settingDirection (before : Option Clock) (new : Clock) : Nat :=
  match before with
  | none => 0
  | some old => if old.stamp ≤ new.stamp then 1 else 2

/-- The TIME_SET request (R143), after a due check still owed (log entry 3). -/
def timeSetRequest (day : Half) (second : BitVec 24) (s : State) : Answer :=
  if second.toNat ≤ 86399 then
    let ready := takeDueCheck s
    let new : Clock := { day := day.toNat, second := second.toNat }
    let direction := settingDirection ready.timebase.clock new
    let written := { ready with timebase := { ready.timebase with clock := some new } }
    let (s', k) := if direction = 2 then (written, 0) else dueCheck written
    answerWith s' .ok (n1 direction ++ clockBytes ready.timebase.clock ++ n1 k)
  else refuse s .badValue

/-- TIME_SET (R143). -/
def execTimeSet (day : Half) (second : BitVec 24) (s : State) : Host.Outcome State Fault Refusal :=
  .next ((timeSetRequest day second s).reply 0x17)

end Sys2Proof.Machine
end

