-- ==== Sys2Proof/Machine/System.lean ====
section
/-! DEFINITION. The requests that reach the whole part: STATUS, CONFIGURE, RESTART, and POWER_ON_RESET (R178, R180 to
R182). -/

namespace Sys2Proof.Machine

/-! ## STATUS (R180) -/

/-- The target of a transaction in the in-flight summary (R184). -/
def Job.targetBytes : Job → List Byte
  | .set a _ _ _ | .poll a _ | .scrub a _ _ | .passSet a _ _ => fullAddr a
  | .group g _ _ => n2 g.val

/-- The number of hops of a transaction's route; a group frame has none. -/
def Context.hops? (c : Context) : Option Nat :=
  match c.job with
  | .group _ _ _ => none
  | .set _ _ _ _ | .poll _ _ | .scrub _ _ _ | .passSet _ _ _ => some c.route.length

/-- One transaction of the in-flight summary (R105). -/
def Context.bytes (c : Context) : List Byte :=
  n1 c.job.code ++ n1 c.source.code ++ c.job.targetBytes ++ n1 c.coupler.code ++ opt1 c.hops? ++ n1 c.seq.toNat
    ++ n1 c.stage.code ++ n1 c.remaining

/-- How many records a test picks, in two bytes. -/
def State.countBytes (s : State) (p : Record → Bool) : List Byte := n2 (s.table.countP p)

/-- The records by image state, PENDING split by cover, then by reach, and the pin count (R180); the order of the
image states and of the covers is log entry 37. One byte each for what can be no more than the entries the queues take
(cover OWN_ENTRY, R85) or the contexts (cover IN_FLIGHT, R105), and for the pinned records (R25, R184). -/
def State.recordBytes (s : State) : List Byte :=
  s.countBytes (fun r => r.image == .none) ++ s.countBytes (fun r => r.image == .unknown)
    ++ n1 (s.table.countP fun r => r.image.coverCode == 1) ++ n1 (s.table.countP fun r => r.image.coverCode == 2)
    ++ s.countBytes (fun r => r.image.coverCode == 3) ++ s.countBytes (fun r => r.image.coverCode == 4)
    ++ s.countBytes (fun r => r.image == .confirmed) ++ s.countBytes (fun r => r.image == .shared)
    ++ s.countBytes (fun r => r.reach == .reachable) ++ s.countBytes (fun r => r.reach == .lost)
    ++ n1 s.pinCount

/-- The depths of the queues and the GROUP entries in each (R85, R180); that urgent stands before normal, and both
depths before the GROUP entries, is log entry 37. -/
def State.queueBytes (s : State) : List Byte :=
  n1 s.urgent.length ++ n1 s.normal.length ++ n1 (s.urgent.countP Entry.isGroup) ++ n1 (s.normal.countP Entry.isGroup)

/-- The Refresh Controller's five parameters, B, M and P (R180). -/
def Refresh.bytes (r : Refresh) : List Byte :=
  n1 r.mode.code ++ n2 r.interval ++ n1 r.kind.code ++ n1 r.priority ++ n2 r.limit ++ n2 r.backlog ++ n2 r.missed
    ++ n2 r.pointer

/-- LINE_MASK, and the active and staged values of the three line parameters (R180). -/
def Arbiter.bytes (x : Arbiter) : List Byte :=
  n1 x.lineMask ++ n1 x.slotHc.active ++ opt1 x.slotHc.staged ++ flagByte x.pipeline.active
    ++ opt1 (x.pipeline.staged.map boolCode) ++ n1 x.guard.active ++ opt1 x.guard.staged

/-- DEFAULT_COUPLER: 0 A, 1 B, 2 C, 3 BRIDGED, 4 NONE (R181). -/
def defaultCouplerCode : Option Coupler → Nat
  | some c => c.code
  | none => 4

/-- The eleven counters (R180). -/
def Counters.bytes (c : Counters) : List Byte :=
  n2 c.garbled ++ n2 c.silent ++ n2 c.authFail ++ n2 c.stale ++ n2 c.stranded ++ n2 c.queueFull ++ n2 c.planMiss
    ++ n2 c.merged ++ n2 c.linkCrc ++ n2 c.linkGap ++ n2 c.linkOverrun

/-- The status report (R180); the in-flight summary stands in launch order (log entry 37). -/
def State.report (s : State) : List Byte :=
  n1 s.mains.line.code ++ opt1 (s.mains.freq.map (·.code)) ++ bytes4 s.timebase.uptime ++ clockBytes s.timebase.clock
    ++ s.recordBytes ++ n1 s.segment.toNat ++ s.queueBytes
    ++ n1 s.contexts.length ++ s.contexts.flatMap (·.bytes)
    ++ s.refresh.bytes ++ s.arbiter.bytes ++ n1 s.attempts ++ n1 (defaultCouplerCode s.defaultCoupler)
    ++ n1 s.plan.length ++ s.counters.bytes

/-- The STATUS request (R180): with the clear flag the counters are reported and then zeroed. -/
def statusRequest (clear : Byte) (s : State) : Answer :=
  if flagOk clear = false then refuse s .badValue
  else answerWith (if flagSet clear then { s with counters := Counters.zero } else s) .ok s.report

/-- STATUS (R180). -/
def execStatus (clear : Byte) (s : State) : Host.Outcome State Fault Refusal := .next ((statusRequest clear s).reply 0x01)

/-! ## CONFIGURE (R181) -/

/-- A value between two bounds. -/
def within (lo hi : Nat) (v : Half) : Bool := decide (lo ≤ v.toNat) && decide (v.toNat ≤ hi)

/-- A parameter number and its value lie in their ranges (R181). -/
def paramOk (number : Byte) (v : Half) : Bool :=
  match number.toNat with
  | 1 => v == 8 || v == 12 || v == 16 || v == 24
  | 2 => within 0 1 v
  | 3 => within 0 3 v
  | 4 => within 1 7 v
  | 5 => within 0 4 v
  | 6 => within 0 7 v
  | 7 => within 0 1 v
  | 8 => within 1 3600 v
  | 9 => within 0 1 v
  | 10 => within 1 7 v
  | 11 => within 1 1023 v
  | _ => false

/-- The coupler a value of DEFAULT_COUPLER names: none for 4, NONE (R181). -/
def defaultCouplerOf (v : Half) : Option Coupler := couplerOf (v.setWidth 8)

/-- Stages a value (R102). -/
def Staged.stage (x : Staged α) (v : α) : Staged α := { x with staged := some v }

/-- One parameter takes its value; parameters 1 to 3 are staged (R102, R181). -/
def State.setParam (s : State) (number : Byte) (v : Half) : State :=
  match number.toNat with
  | 1 => { s with arbiter := { s.arbiter with slotHc := s.arbiter.slotHc.stage v.toNat } }
  | 2 => { s with arbiter := { s.arbiter with pipeline := s.arbiter.pipeline.stage (v == 1) } }
  | 3 => { s with arbiter := { s.arbiter with guard := s.arbiter.guard.stage v.toNat } }
  | 4 => { s with attempts := v.toNat }
  | 5 => { s with defaultCoupler := defaultCouplerOf v }
  | 6 => { s with arbiter := { s.arbiter with lineMask := v.toNat } }
  | 7 => { s with refresh := { s.refresh with mode := if v = 1 then .external else .auto } }
  | 8 => { s with refresh := { s.refresh with interval := v.toNat } }
  | 9 => { s with refresh := { s.refresh with kind := if v = 1 then .scrub else .reassert } }
  | 10 => { s with refresh := { s.refresh with priority := v.toNat } }
  | 11 => { s with refresh := { s.refresh with limit := v.toNat } }
  | _ => s

/-- The pairs name this parameter. -/
def names (pairs : List (Byte × Half)) (number : Byte) : Bool := pairs.any fun x => x.1 == number

/-- Every pair in range, no parameter twice (R181). -/
def pairsOk (pairs : List (Byte × Half)) : Bool :=
  pairs.all (fun x => paramOk x.1 x.2) && decide (pairs.map (·.1)).Nodup

/-- The owners' consequences, once every value is in place (R124, R140, R181). -/
def configured (pairs : List (Byte × Half)) (before s : State) : State :=
  let routed := if s.defaultCoupler = before.defaultCoupler then s else s.redecode
  let timed := if names pairs 8 then routed.restartTimer else routed
  if names pairs 7 = true ∨ names pairs 11 = true then timed.evaluateBacklog else timed

/-- The CONFIGURE request (R181); a number of pairs outside 1..11 has a length the table does not give (R175). -/
def configureRequest (pairs : List (Byte × Half)) (s : State) : Answer :=
  if pairs.length = 0 ∨ 11 < pairs.length then refuse s .length
  else if pairsOk pairs = false then refuse s .badValue
  else
    let written := pairs.foldl (fun t x => t.setParam x.1 x.2) s
    let content :=
      if written.defaultCoupler = s.defaultCoupler then
        flagByte false ++ RedecodeCounts.bytes { decoded := 0, deferred := 0, unroutable := 0 }
      else flagByte true ++ written.redecodeCounts.bytes
    let code := if names pairs 1 = true ∨ names pairs 2 = true ∨ names pairs 3 = true then .staged else .ok
    answerWith (configured pairs s written) code content

/-- CONFIGURE (R181). -/
def execConfigure (pairs : List (Byte × Half)) (s : State) : Host.Outcome State Fault Refusal :=
  .next ((configureRequest pairs s).reply 0x02)

/-! ## RESTART (R182) -/

/-- The target of an aborted individual transaction (R67). -/
def Record.restarted (c : Context) (r : Record) : Record :=
  let landed := { r with
    inFlight := false
    confirmed := if c.job.sentList.isSome then none else r.confirmed }
  if r.cls = .pass then landed else { landed with image := .unknown, mark := none }

/-- A context ends ABORTED under RESTART: an individual target by R67, with a due re-decode. -/
def abortIndividual (s : State) (c : Context) : State :=
  match c.job with
  | .set a _ _ _ | .poll a _ | .scrub a _ _ | .passSet a _ _ => (s.updRecord a (Record.restarted c)).dueRedecode a
  | .group _ _ _ => s

/-- A group frame in flight is applied as ended, its deliveries as cover REFRESH (R82). -/
def abortGroupFrame (s : State) (c : Context) : State :=
  match c.job with
  | .group g t _ => frameEnds .refreshOnly g t c.seq c.priority s
  | .set _ _ _ _ | .poll _ _ | .scrub _ _ _ | .passSet _ _ _ => s

/-- A record left PENDING with cover OWN_ENTRY or GROUP(g) takes cover REFRESH and gives up its mark (R67). -/
def Record.emptied (r : Record) : Record :=
  match r.image with
  | .pending .ownEntry | .pending (.group _) => { r with image := .pending .refresh, mark := none }
  | .pending .inFlight | .pending .refresh | .none | .unknown | .confirmed | .shared => r

/-- The boundary after the slot in progress: a boundary still due ends the slot whose number has already risen
(R10, log entry 4). -/
def State.nextBoundary (s : State) : Boundary := if s.mains.boundaryDue then s.boundary else s.boundary + 1

/-- The couplers of aborted work are released by the guard as it stands after staged values have applied (R10,
R104). -/
def releaseAborted (at' : Boundary) (x : Arbiter) (c : Context) : Arbiter :=
  x.freedAt c.coupler (at' + BitVec.ofNat 32 x.guard.active)

/-- Steps 1 to 3 of R182: transactions, records and groups, queues. -/
def restartLine (s : State) : State :=
  let quiet := { s with transmitter := none, receivers := Receivers.quiet }
  let applied := quiet.contexts.foldl abortIndividual (quiet.contexts.foldl abortGroupFrame quiet)
  { applied with urgent := [], normal := [], table := applied.table.map Record.emptied }

/-- Step 4 of R182: the Line Arbiter, and the contexts gone. -/
def restartArbiter (s : State) : State :=
  let freed := s.contexts.foldl (releaseAborted s.nextBoundary) s.arbiter.applyStaged
  { s with contexts := [], arbiter := { freed with reservation := none } }

/-- Step 5 of R182: a refresh in flight is not accounted, B becomes 0 (R136, R137). -/
def restartRefresh (s : State) : State :=
  { s with refresh := { s.refresh with inFlight := none } }.setOwed 0 s.refresh.missed

/-- The RESTART request (R182). -/
def restartRequest (s : State) : Answer :=
  answerWith (restartRefresh (restartArbiter (restartLine s))).restartNotices .ok []

/-- RESTART (R182). -/
def execRestart (s : State) : Host.Outcome State Fault Refusal := .next ((restartRequest s).reply 0x1D)

/-! ## POWER_ON_RESET (R178) -/

/-- The strap rate code; unconnected pins read 01 by their pulls (R172). -/
def strapCode (rate1 rate0 : Option Bool) : BitVec 2 := BitVec.ofBool (rate1.getD false) ++ BitVec.ofBool (rate0.getD true)

/-- POWER_ON_RESET (R178): every block at its reset state, the straps read, a ready frame placed. The commands that
wait outside the part keep waiting (log entry 25). -/
def execPowerOnReset (rate1 rate0 : Option Bool) (s : State) : Host.Outcome State Fault Refusal :=
  .next { State.reset with
    pending := s.pending
    link := { State.reset.link with strap := strapCode rate1 rate0 } }

end Sys2Proof.Machine
end

