-- ==== Sys2Proof/Machine/Link.lean ====
section
/-! DEFINITION. The Link Interface and the taking of request frames (R172 to R179): the framer, the waiting-frame
buffer, the checks of a taken frame, the reading of a payload, and the order of what is sent. -/

namespace Sys2Proof.Machine

/-! ## Reading a payload (R179) -/

/-- What the Request Handler makes of a payload: a request, a length the table does not give for the KIND, or a
target form outside its encoding (R175, R179). -/
inductive RequestRead where
  | command (i : Instr)
  | badLength
  | badForm
  deriving DecidableEq, Repr

/-- Two bytes as a field. -/
def half (hi lo : Byte) : Half := hi ++ lo

/-- The five bytes of a route. -/
def routeField (n a1 a0 b1 b0 : Byte) : RouteField := { count := n, hop1 := half a1 a0, hop2 := half b1 b0 }

/-- The pairs of CONFIGURE; none where the bytes are no whole number of pairs. -/
def readPairs : List Byte → Option (List (Byte × Half))
  | [] => some []
  | n :: hi :: lo :: rest => (readPairs rest).map fun l => (n, half hi lo) :: l
  | [_] | [_, _] => none

/-- CONFIGURE: 1 to 11 pairs. -/
def readConfigure (p : List Byte) : RequestRead :=
  match readPairs p with
  | none => .badLength
  | some l => if l.length = 0 ∨ 11 < l.length then .badLength else .command (.configure l)

/-- WINDOW_SET: 7 bytes. -/
def readWindowSet : List Byte → RequestRead
  | [w, b1, b0, l1, l0, x, e] => .command (.windowSet w (half b1 b0) (half l1 l0) x e)
  | _ => .badLength

/-- ENROL: 27 bytes. -/
def readEnrol : List Byte → RequestRead
  | [a1, a0, check, cls, enforce, pinned, p0, p1, p2, p3, p4, q0, q1, q2, q3, q4, fixedCoupler, n, g0, g1, g2, g3,
      noticeGroup, tariff, assumed, fresh, priority] =>
    .command (.enrol
      { addr := half a1 a0, check := check, cls := cls, enforce := enforce, pinned := pinned
        primary := routeField p0 p1 p2 p3 p4, alternate := routeField q0 q1 q2 q3 q4, fixedCoupler := fixedCoupler
        groups := { count := n, g0 := g0, g1 := g1, g2 := g2, g3 := g3 }, noticeGroup := noticeGroup
        initialTariff := tariff, assumedHeld := assumed, fresh := fresh, priority := priority })
  | _ => .badLength

/-- AMEND: 23 bytes. -/
def readAmend : List Byte → RequestRead
  | [a1, a0, cls, enforce, pinned, p0, p1, p2, p3, p4, q0, q1, q2, q3, q4, fixedCoupler, n, g0, g1, g2, g3,
      noticeGroup, priority] =>
    .command (.amend
      { addr := half a1 a0, cls := cls, enforce := enforce, pinned := pinned
        primary := routeField p0 p1 p2 p3 p4, alternate := routeField q0 q1 q2 q3 q4, fixedCoupler := fixedCoupler
        groups := { count := n, g0 := g0, g1 := g1, g2 := g2, g3 := g3 }, noticeGroup := noticeGroup
        priority := priority })
  | _ => .badLength

/-- OVERRIDE: 7 bytes; form 0 an endpoint, 1 a group. -/
def readOverride : List Byte → RequestRead
  | [form, t1, t0, tariff, m1, m0, priority] =>
    if form = 0 then .command (.override (half t1 t0) tariff (half m1 m0) priority)
    else if form = 1 then .command (.overrideGroup (half t1 t0) tariff (half m1 m0) priority)
    else .badForm
  | _ => .badLength

/-- END_OVERRIDE: 3 bytes; form 0 an endpoint, 1 a group. -/
def readEndOverride : List Byte → RequestRead
  | [form, t1, t0] =>
    if form = 0 then .command (.endOverride (half t1 t0))
    else if form = 1 then .command (.endOverrideGroup (half t1 t0))
    else .badForm
  | _ => .badLength

/-- PUSH: 3 bytes; the address value 0xFFFF stands for ALL (R183). -/
def readPush : List Byte → RequestRead
  | [a1, a0, priority] =>
    if half a1 a0 = 0xFFFF then .command (.pushAll priority) else .command (.push (half a1 a0) priority)
  | _ => .badLength

/-- PLAN_ADD: 16 bytes. -/
def readPlanAdd : List Byte → RequestRead
  | [d1, d0, s2, s1, s0, daily, form, t0, t1, t2, t3, action, tariff, m1, m0, priority] =>
    .command (.planAdd
      { dueDay := half d1 d0, dueSecond := s2 ++ half s1 s0, daily := daily, form := form, t0 := t0, t1 := t1
        t2 := t2, t3 := t3, action := action, tariff := tariff, minutes := half m1 m0, priority := priority })
  | _ => .badLength

/-- A request of no payload. -/
def read0 (i : Instr) : List Byte → RequestRead
  | [] => .command i
  | _ => .badLength

/-- A request of one byte. -/
def read1 (i : Byte → Instr) : List Byte → RequestRead
  | [x] => .command (i x)
  | _ => .badLength

/-- A request of one two-byte field. -/
def read2 (i : Half → Instr) : List Byte → RequestRead
  | [x1, x0] => .command (i (half x1 x0))
  | _ => .badLength

/-- SET: 4 bytes. -/
def readSet : List Byte → RequestRead
  | [a1, a0, t, p] => .command (.set (half a1 a0) t p)
  | _ => .badLength

/-- SET_RANGE: 6 bytes. -/
def readSetRange : List Byte → RequestRead
  | [g, u, n1, n0, t, p] => .command (.setRange g u (half n1 n0) t p)
  | _ => .badLength

/-- SET_GROUP: 3 bytes. -/
def readSetGroup : List Byte → RequestRead
  | [g, t, p] => .command (.setGroup g t p)
  | _ => .badLength

/-- GROUP_SET: 2 bytes. -/
def readGroupSet : List Byte → RequestRead
  | [g, r] => .command (.groupSet g r)
  | _ => .badLength

/-- POLL: 3 bytes. -/
def readPoll : List Byte → RequestRead
  | [a1, a0, p] => .command (.poll (half a1 a0) p)
  | _ => .badLength

/-- TIME_SET: 5 bytes. -/
def readTimeSet : List Byte → RequestRead
  | [d1, d0, s2, s1, s0] => .command (.timeSet (half d1 d0) (s2 ++ half s1 s0))
  | _ => .badLength

/-- NOTICE_MAP_SET: 3 bytes. -/
def readNoticeMapSet : List Byte → RequestRead
  | [k, g, l] => .command (.noticeMapSet k g l)
  | _ => .badLength

/-- NOTICE_LINE_SET: 5 bytes. -/
def readNoticeLineSet : List Byte → RequestRead
  | [l, m, e, t1, t0] => .command (.noticeLineSet l m e (half t1 t0))
  | _ => .badLength

/-- Reads the payload of a request KIND (R179). -/
def readRequest (kind : Byte) (p : List Byte) : RequestRead :=
  match kind.toNat with
  | 0x01 => read1 .status p
  | 0x02 => readConfigure p
  | 0x03 => read1 .segmentSet p
  | 0x04 => readWindowSet p
  | 0x05 => readEnrol p
  | 0x06 => readAmend p
  | 0x07 => read2 .retire p
  | 0x08 => read2 .query p
  | 0x09 => readSet p
  | 0x0A => readSetRange p
  | 0x0B => readSetGroup p
  | 0x0C => readGroupSet p
  | 0x0D => read1 .groupQuery p
  | 0x0E => readOverride p
  | 0x0F => readEndOverride p
  | 0x10 => readPoll p
  | 0x11 => readPush p
  | 0x12 => read2 .forget p
  | 0x13 => read0 .forgetAll p
  | 0x14 => readPlanAdd p
  | 0x15 => read1 .planRemove p
  | 0x16 => read1 .planList p
  | 0x17 => readTimeSet p
  | 0x18 => read2 .refreshNow p
  | 0x19 => readNoticeMapSet p
  | 0x1A => readNoticeLineSet p
  | 0x1B => read2 .noticeDone p
  | 0x1C => read0 .noticeStatus p
  | 0x1D => read0 .restart p
  | _ => .badLength

/-- Carries out a request by the rule that owns it (R176); the other commands are no requests. -/
def carryOut (i : Instr) (s : State) : Answer :=
  match i with
  | .status x => statusRequest x s
  | .configure l => configureRequest l s
  | .segmentSet x => segmentSetRequest x s
  | .windowSet w b l x e => windowSetRequest w b l x e s
  | .enrol f => enrolRequest f s
  | .amend f => amendRequest f s
  | .retire a => retireRequest a s
  | .query a => queryRequest a s
  | .set a t p => setRequest a t p s
  | .setRange g u n t p => setRangeRequest g u n t p s
  | .setGroup g t p => setGroupRequest g t p s
  | .groupSet g r => groupSetRequest g r s
  | .groupQuery g => groupQueryRequest g s
  | .override x t m p => overrideRequest x t m p s
  | .overrideGroup x t m p => overrideGroupRequest x t m p s
  | .endOverride x => endOverrideRequest x s
  | .endOverrideGroup x => endOverrideGroupRequest x s
  | .poll a p => pollRequest a p s
  | .push a p => pushRequest a p s
  | .pushAll p => pushAllRequest p s
  | .forget a => forgetRequest a s
  | .forgetAll => forgetAllRequest s
  | .planAdd f => planAddRequest f s
  | .planRemove x => planRemoveRequest x s
  | .planList x => planListRequest x s
  | .timeSet d x => timeSetRequest d x s
  | .refreshNow n => refreshNowRequest n s
  | .noticeMapSet k g l => noticeMapSetRequest k g l s
  | .noticeLineSet l m e t => noticeLineSetRequest l m e t s
  | .noticeDone t => noticeDoneRequest t s
  | .noticeStatus => noticeStatusRequest s
  | .restart => restartRequest s
  | .powerOnReset _ _ | .zeroCrossing _ | .acquiringMissingCrossing | .missingCrossing | .mainsLoss
  | .slotBoundary | .lineFrameReceived _ _ _ | .transactionEnd | .scrubDecision | .groupFrameEnd | .secondEvent
  | .refreshIntervalExpiry | .overrideEndDue | .planEntryDue | .interByteGap | .frameDiscarded
  | .frameComplete _ | .frameError | .unknownRequest _ | .linkTransmitterFree | .frameStart | .discardEnd =>
    refuse s .unknownRequest

/-! ## Judging a taken frame (R175) -/

/-- Puts a reply frame behind those that wait. -/
def State.putReply (s : State) (f : LinkFrame) : State :=
  { s with link := { s.link with replies := s.link.replies ++ [f] } }

/-- The reply to a frame with a bad LEN or CRC: KIND 0xFF, FRAME_ERROR, LINK_CRC counted (R175, order 1). -/
def answerFrameError (s : State) : State :=
  s.countLinkCrc.putReply { kind := 0xFF, payload := [ResultCode.byte .frameError] }

/-- The reply to an unknown KIND: KIND 0xFE, UNKNOWN_REQUEST and the KIND received (R175, order 2). -/
def answerUnknown (kind : Byte) (s : State) : State :=
  s.putReply { kind := 0xFE, payload := [ResultCode.byte .unknownRequest, kind] }

/-- A frame that passes checks 1 and 2: its length, then the request itself (R175, orders 3 and 4). -/
def answerRequest (kind : Byte) (payload : List Byte) (s : State) : State :=
  match readRequest kind payload with
  | .badLength => (refuse s .length).reply kind
  | .badForm => (refuse s .badValue).reply kind
  | .command i => (carryOut i s).reply kind

/-- The CRC of a frame as received over LEN, KIND and payload (R172). -/
def frameCrc (kind : Byte) (payload : List Byte) : BitVec 16 := crc16 (BitVec.ofNat 8 payload.length :: kind :: payload)

/-- The checks of R175 on a taken frame, and its answer. -/
def judgeFrame (f : RxFrame) (s : State) : State :=
  match f with
  | .badLength => answerFrameError s
  | .frame kind payload crc =>
    if crc ≠ frameCrc kind payload then answerFrameError s
    else if isRequestKind kind then answerRequest kind payload s
    else answerUnknown kind s

/-- The Request Handler takes the waiting frame when it has none in hand, which is while no reply waits (R174, log
entry 19). -/
def takeFrame (s : State) : State :=
  match s.link.replies, s.link.buffer with
  | [], .holding f => judgeFrame f { s with link := { s.link with buffer := .free } }
  | [], .free | [], .filling => s
  | _ :: _, _ => s

/-- FRAME_ERROR (R175). -/
def execFrameError (s : State) : Host.Outcome State Fault Refusal := .next (answerFrameError s)

/-- UNKNOWN_REQUEST (R175). -/
def execUnknownRequest (kind : Byte) (s : State) : Host.Outcome State Fault Refusal := .next (answerUnknown kind s)

/-! ## The framer (R173) -/

/-- The frame that the bytes after START make (R173). -/
def rxFrameOf (bytes : List Byte) : RxFrame :=
  match bytes with
  | [] => .badLength
  | [_] => .badLength
  | _ :: kind :: rest =>
    match rest.drop (rest.length - 2) with
    | [hi, lo] => .frame kind (rest.take (rest.length - 2)) (half hi lo)
    | _ => .badLength

/-- The frame whose START found a frame waiting is dropped and counted (R173). -/
def dropStart (s : State) : State := { s with link := { s.link with framer := .discarding } }.countLinkOverrun

/-- FRAME_START (R173): in HUNTING a START begins a frame, received if the buffer is free, else discarded. -/
def execFrameStart (s : State) : Host.Outcome State Fault Refusal :=
  match s.link.framer, s.link.buffer with
  | .hunting, .free => .next { s with link := { s.link with framer := .receiving, buffer := .filling } }
  | .hunting, .holding _ => .next (dropStart s)
  | .hunting, .filling => .next s
  | .receiving, _ => .next s
  | .discarding, _ => .next s

/-- FRAME_DISCARDED (R173): in HUNTING a START finds the buffer holding a complete frame. -/
def execFrameDiscarded (s : State) : Host.Outcome State Fault Refusal :=
  match s.link.framer, s.link.buffer with
  | .hunting, .holding _ => .next (dropStart s)
  | .hunting, .free | .hunting, .filling => .next s
  | .receiving, _ => .next s
  | .discarding, _ => .next s

/-- DISCARD_END (R173): the last byte of the frame being discarded, or a LEN above 240. -/
def execDiscardEnd (s : State) : Host.Outcome State Fault Refusal :=
  match s.link.framer with
  | .discarding => .next { s with link := { s.link with framer := .hunting } }
  | .hunting | .receiving => .next s

/-- INTER_BYTE_GAP (R173): the frame is abandoned, one being received counted in LINK_GAP. -/
def execInterByteGap (s : State) : Host.Outcome State Fault Refusal :=
  match s.link.framer with
  | .receiving => .next { s with link := { s.link with framer := .hunting, buffer := .free } }.countLinkGap
  | .discarding => .next { s with link := { s.link with framer := .hunting } }
  | .hunting => .next s

/-- FRAME_COMPLETE (R173, R174): the frame being received stands complete in the buffer, and is taken at once when
no frame is in hand. -/
def execFrameComplete (bytes : List Byte) (s : State) : Host.Outcome State Fault Refusal :=
  match s.link.framer with
  | .receiving =>
    if isCompleteFrame bytes then
      .next (takeFrame { s with link := { s.link with framer := .hunting, buffer := .holding (rxFrameOf bytes) } })
    else .next s
  | .hunting | .discarding => .next s

/-! ## What is sent (R177) -/

/-- Begins to send a frame. -/
def State.send (s : State) (f : Option LinkFrame) : State := { s with link := { s.link with sending := f } }

/-- The transmitter is free: the ready frame, else a reply, else the oldest notice; a reply that begins frees the
handler for the waiting frame (R169, R174, R177). -/
def sendNext (s : State) : State :=
  if s.link.ready then
    { s with link := { s.link with ready := false } }.send (some (readyFrame s.link.strap))
  else
    match s.link.replies, s.fifo with
    | r :: rs, _ => takeFrame ({ s with link := { s.link with replies := rs } }.send (some r))
    | [], n :: ns => { s with fifo := ns }.send (some n.frame)
    | [], [] => s.send none

/-- LINK_TRANSMITTER_FREE (R177). -/
def execLinkTransmitterFree (s : State) : Host.Outcome State Fault Refusal := .next (sendNext s)

end Sys2Proof.Machine
end

