-- ==== Sys2Proof/Machine/Mains.lean ====
section
/-! DEFINITION. The Mains Timing Unit: acquiring, lock, the slot grid, missing crossings and mains loss (R1 to R8, with
R66, R83, R90, R92, R122, R138 and R139). Times are microseconds (log entry 2). -/

namespace Sys2Proof.Machine

/-- The nominal half-cycle N (R2). -/
def nominal : Option Frequency → Nat
  | some .hz60 => 8330
  | some .hz50 | none => 10000

/-- Half a nominal half-cycle, as R4 gives it. -/
def halfNominal : Option Frequency → Nat
  | some .hz60 => 4170
  | some .hz50 | none => 5000

/-- A spacing that keeps a run going: 7.5 to 11.0 ms (R2). -/
def goodSpacing (spacing : Nat) : Bool := decide (7500 ≤ spacing) && decide (spacing ≤ 11000)

/-- The frequency that the 15 spacings of a run decide: 50 Hz when their mean is nearer 10 ms than 8.33 ms (R3). -/
def lockFrequency (runSum : Nat) : Frequency := if 15 * 18330 < 2 * runSum then .hz50 else .hz60

/-- Writes the Mains Timing Unit's state. -/
def State.setMains (s : State) (f : Mains → Mains) : State := { s with mains := f s.mains }

/-- The crossing starts a run (R2, R7). -/
def Mains.startRun (m : Mains) (time : Nat) : Mains := { m with good := 1, runSum := 0, refTime := time }

/-- The lock is a mains return: the return flag falls and the restore sweep is made (R3, R139, R161). -/
def State.takeReturn (s : State) : State :=
  (noticeChange s (s.setMains fun m => { m with returnFlag := false })).restoreSweep

/-- The line comes UP with a new grid; staged values are active from slot 0 and every coupler is free from
boundary 1 (R3, R10, R92, R103). -/
def State.layGrid (s : State) (freq : Frequency) : State :=
  let x := s.arbiter.applyStaged
  { s with
    arbiter := { x with freeA := some 1, freeB := some 1, freeC := some 1 }
    mains := { s.mains with
      line := .up, freq := some freq, missing := 0, boundaryDue := false
      grid := some { boundary := 0, half := 0, length := x.slotHc.active } } }

/-- The lock (R3). -/
def State.lock (s : State) : State :=
  let locked := s.layGrid (lockFrequency s.mains.runSum)
  if s.mains.returnFlag then locked.takeReturn else locked

/-- A crossing taken while ACQUIRING (R2, R3). -/
def crossingAcquiring (time : Nat) (s : State) : State :=
  let spacing := time - s.mains.refTime
  if s.mains.good = 0 ∨ goodSpacing spacing = false then s.setMains (·.startRun time)
  else
    let counted := s.setMains fun m =>
      { m with good := m.good + 1, runSum := m.runSum + spacing, refTime := time }
    if counted.mains.good = 16 then counted.lock else counted

/-- A counted crossing closes a half-cycle, and with the last of the slot a boundary is produced (R4). -/
def Mains.closeHalfCycle (m : Mains) : Mains :=
  match m.grid with
  | none => m
  | some g =>
    if g.half + 1 = g.length then
      { m with grid := some { g with boundary := g.boundary + 1, half := 0 }, boundaryDue := true }
    else { m with grid := some { g with half := g.half + 1 } }

/-- A crossing taken while UP: counted from half a nominal half-cycle after the last, else disregarded (R4). -/
def crossingUp (time : Nat) (s : State) : State :=
  if s.mains.refTime + halfNominal s.mains.freq ≤ time then
    s.setMains fun m => { m with missing := 0, refTime := time }.closeHalfCycle
  else s

/-- The first crossing taken while DOWN (R7). -/
def crossingDown (time : Nat) (s : State) : State := s.setMains fun m => { m.startRun time with line := .acquiring }

/-- A zero crossing, after a boundary still due (log entry 4). -/
def takeCrossing (time : Nat) (s : State) : State :=
  let due := takeBoundary s
  match due.mains.line with
  | .acquiring => crossingAcquiring time due
  | .up => crossingUp time due
  | .down => crossingDown time due

/-- ZERO_CROSSING (R2, R3, R4, R7). -/
def execZeroCrossing (time : Nat) (s : State) : Host.Outcome State Fault Refusal := .next (takeCrossing time s)

/-- ACQUIRING_MISSING_CROSSING (R2). -/
def execAcquiringMissingCrossing (s : State) : Host.Outcome State Fault Refusal :=
  match s.mains.line with
  | .acquiring => .next (s.setMains fun m => { m with good := 0, runSum := 0 })
  | .up | .down => .next s

/-- A missing crossing in UP: a substitute crossing N after the last counted one (R5). -/
def takeMissing (s : State) : State :=
  (takeBoundary s).setMains fun m =>
    { m with missing := 1, refTime := m.refTime + nominal m.freq }.closeHalfCycle

/-- MISSING_CROSSING (R5): UP, with the missing count at 0. -/
def execMissingCrossing (s : State) : Host.Outcome State Fault Refusal :=
  if s.mains.line = .up ∧ s.mains.missing = 0 then .next (takeMissing s) else .next s

/-! ## Mains loss (R6) -/

/-- A record at mains loss (R66): its flight is over, a due re-decode is applied, an image with a desired tariff is
UNKNOWN. -/
def State.recordAtLoss (s : State) (r : Record) : Record :=
  let landed := { r with inFlight := false }
  let routed := if r.redecodeDue then landed.redecoded (s.decodeCoupler r.addr) else landed
  if r.cls = .pass ∨ r.desired = none then { routed with mark := none }
  else { routed with image := .unknown, mark := none }

/-- The line goes DOWN (R6). -/
def Mains.lose (m : Mains) : Mains :=
  { m with line := .down, grid := none, boundaryDue := false, missing := 0, good := 0, returnFlag := true }

/-- The arbiter at mains loss: no free-at values, no reservation (R92). -/
def Arbiter.lose (x : Arbiter) : Arbiter :=
  { x with freeA := none, freeB := none, freeC := none, reservation := none }

/-- What every block does at the DOWN transition, before the Condition Tracker takes it (R6). -/
def State.loseBlocks (s : State) : State :=
  { s with
    table := s.table.map s.recordAtLoss
    contexts := []
    transmitter := none
    receivers := Receivers.quiet
    urgent := []
    normal := []
    arbiter := s.arbiter.lose
    refresh := { s.refresh with inFlight := none } }

/-- Mains loss: the blocks' own rules, and the rise of MAINS_DOWN (R6, R161). -/
def takeLoss (s : State) : State :=
  let due := takeBoundary s
  noticeChange due (due.loseBlocks.setMains Mains.lose)

/-- MAINS_LOSS (R6): UP, with the missing count at 1. -/
def execMainsLoss (s : State) : Host.Outcome State Fault Refusal :=
  if s.mains.line = .up ∧ s.mains.missing = 1 then .next (takeLoss s) else .next s

end Sys2Proof.Machine
end

