-- ==== Sys2Proof/Machine/Dispatch.lean ====
section
/-! DEFINITION. The effect of each command on everything but the queue: one arm per row of spec/opcode_table.json. -/

namespace Sys2Proof.Machine

/-- What a command does. -/
def exec (i : Instr) (s : State) : Host.Outcome State Fault Refusal :=
  match i with
  | .powerOnReset rate1 rate0 => Sys2Proof.Machine.execPowerOnReset rate1 rate0 s
  | .zeroCrossing time => Sys2Proof.Machine.execZeroCrossing time s
  | .acquiringMissingCrossing => Sys2Proof.Machine.execAcquiringMissingCrossing s
  | .missingCrossing => Sys2Proof.Machine.execMissingCrossing s
  | .mainsLoss => Sys2Proof.Machine.execMainsLoss s
  | .slotBoundary => Sys2Proof.Machine.execSlotBoundary s
  | .lineFrameReceived path bytes quality => Sys2Proof.Machine.execLineFrameReceived path bytes quality s
  | .transactionEnd => Sys2Proof.Machine.execTransactionEnd s
  | .scrubDecision => Sys2Proof.Machine.execScrubDecision s
  | .groupFrameEnd => Sys2Proof.Machine.execGroupFrameEnd s
  | .secondEvent => Sys2Proof.Machine.execSecondEvent s
  | .refreshIntervalExpiry => Sys2Proof.Machine.execRefreshIntervalExpiry s
  | .overrideEndDue => Sys2Proof.Machine.execOverrideEndDue s
  | .planEntryDue => Sys2Proof.Machine.execPlanEntryDue s
  | .interByteGap => Sys2Proof.Machine.execInterByteGap s
  | .frameDiscarded => Sys2Proof.Machine.execFrameDiscarded s
  | .frameComplete bytes => Sys2Proof.Machine.execFrameComplete bytes s
  | .frameError => Sys2Proof.Machine.execFrameError s
  | .unknownRequest kind => Sys2Proof.Machine.execUnknownRequest kind s
  | .linkTransmitterFree => Sys2Proof.Machine.execLinkTransmitterFree s
  | .status clear => Sys2Proof.Machine.execStatus clear s
  | .configure pairs => Sys2Proof.Machine.execConfigure pairs s
  | .segmentSet segment => Sys2Proof.Machine.execSegmentSet segment s
  | .windowSet window base limit coupler enabled => Sys2Proof.Machine.execWindowSet window base limit coupler enabled s
  | .enrol fields => Sys2Proof.Machine.execEnrol fields s
  | .amend fields => Sys2Proof.Machine.execAmend fields s
  | .retire addr => Sys2Proof.Machine.execRetire addr s
  | .query addr => Sys2Proof.Machine.execQuery addr s
  | .set addr tariff priority => Sys2Proof.Machine.execSet addr tariff priority s
  | .setRange segment start count tariff priority => Sys2Proof.Machine.execSetRange segment start count tariff priority s
  | .setGroup group tariff priority => Sys2Proof.Machine.execSetGroup group tariff priority s
  | .groupSet group repeats => Sys2Proof.Machine.execGroupSet group repeats s
  | .groupQuery group => Sys2Proof.Machine.execGroupQuery group s
  | .override target tariff minutes priority => Sys2Proof.Machine.execOverride target tariff minutes priority s
  | .overrideGroup target tariff minutes priority => Sys2Proof.Machine.execOverrideGroup target tariff minutes priority s
  | .endOverride target => Sys2Proof.Machine.execEndOverride target s
  | .endOverrideGroup target => Sys2Proof.Machine.execEndOverrideGroup target s
  | .poll addr priority => Sys2Proof.Machine.execPoll addr priority s
  | .push addr priority => Sys2Proof.Machine.execPush addr priority s
  | .pushAll priority => Sys2Proof.Machine.execPushAll priority s
  | .forget addr => Sys2Proof.Machine.execForget addr s
  | .forgetAll => Sys2Proof.Machine.execForgetAll s
  | .planAdd fields => Sys2Proof.Machine.execPlanAdd fields s
  | .planRemove id => Sys2Proof.Machine.execPlanRemove id s
  | .planList position => Sys2Proof.Machine.execPlanList position s
  | .timeSet day second => Sys2Proof.Machine.execTimeSet day second s
  | .refreshNow n => Sys2Proof.Machine.execRefreshNow n s
  | .noticeMapSet kind group line => Sys2Proof.Machine.execNoticeMapSet kind group line s
  | .noticeLineSet line masked mode tag => Sys2Proof.Machine.execNoticeLineSet line masked mode tag s
  | .noticeDone tag => Sys2Proof.Machine.execNoticeDone tag s
  | .noticeStatus => Sys2Proof.Machine.execNoticeStatus s
  | .restart => Sys2Proof.Machine.execRestart s
  | .frameStart => Sys2Proof.Machine.execFrameStart s
  | .discardEnd => Sys2Proof.Machine.execDiscardEnd s

end Sys2Proof.Machine
end

