-- ==== Sys2Proof/Machine/Step.lean ====
section
/-! DEFINITION. One step: the command at the front of the queue. -/

namespace Sys2Proof.Machine

/-- The state whose queue is the given one. -/
def State.withPending (s : State) (l : List Instr) : State := { s with pending := l }

/-- The command at the front of the queue is carried out on the state with the queue's rest; on an empty queue the
part idles (log entry 26). -/
def step (s : State) : Host.Outcome State Fault Refusal :=
  match s.pending with
  | [] => .next s
  | i :: rest => exec i (s.withPending rest)

/-- The command that a table word spells, at the front of the queue; the state unchanged where the word spells
none. -/
def State.withFetchWord (s : State) (nbits w : Nat) : State :=
  match decodeTableWord nbits w with
  | none => s
  | some i => s.withPending (i :: s.pending)

end Sys2Proof.Machine
end

