-- ==== Sys2Proof/Machine/Feeder.lean ====
section
/-! DEFINITION. The feeder protocol that the part relies on (R15 to R18): what endpoints and repeaters do. They are
outside the part (log entry 30): no command changes an endpoint here, and step does not call this file. -/

namespace Sys2Proof.Machine

/-- What an endpoint keeps (R15 to R18): the tariff it holds, the last one it took from the line, its stored list,
its flags, its hold timer in seconds left and the sequence of the last downlink frame it acted on. -/
structure Endpoint where
  addr : Addr
  check : CheckValue
  held : Tariff
  fromLine : Tariff
  stored : List Group
  restored : Bool
  relayFault : Bool
  localSwitch : Bool
  holdExpired : Bool
  holdTime : Nat
  holdLeft : Nat
  lastSeq : Option Seq
  deriving DecidableEq, Repr

/-- Takes a tariff from the line: held unless the local switch is in effect, when it is kept to return to (R15). -/
def Endpoint.adopt (e : Endpoint) (t : Tariff) : Endpoint :=
  { e with held := if e.localSwitch then e.held else t, fromLine := t, holdLeft := e.holdTime }

/-- A good SET frame for the endpoint: acted on once for each sequence (R15). -/
def Endpoint.takeSet (e : Endpoint) (seq : Seq) (t : Tariff) (list : List Group) : Endpoint :=
  if e.lastSeq = some seq then e
  else { e.adopt t with stored := list, restored := false, holdExpired := false, lastSeq := some seq }

/-- A good GROUP frame: acted on once for each sequence by an endpoint that stores the group (R16). -/
def Endpoint.takeGroup (e : Endpoint) (seq : Seq) (g : Group) (t : Tariff) : Endpoint :=
  if e.stored.contains g = false ∨ e.lastSeq = some seq then e
  else { e.adopt t with lastSeq := some seq }

/-- The ACK that answers a SET or a POLL with the endpoint's state (R14, R15, R16). -/
def Endpoint.answer (e : Endpoint) (seq : Seq) (quality : Quality) : AckFrame :=
  { seq := seq, addr := e.addr.setWidth 16, check := e.check, held := e.held, restored := e.restored,
    relayFault := e.relayFault, localOverride := e.localSwitch, holdExpired := e.holdExpired, quality := quality }

/-- The bytes of an ACK frame (R185). -/
def AckFrame.bytes (f : AckFrame) : List Byte :=
  closeFrame
    (frameHead 3 f.seq :: bytes2 f.addr
      ++ [f.check ++ f.held,
          BitVec.ofBool f.restored ++ BitVec.ofBool f.relayFault ++ BitVec.ofBool f.localOverride
            ++ BitVec.ofBool f.holdExpired ++ f.quality])

/-- The slot after launch in which the target answers on a route of h hops (R15, R19). -/
def answerSlot (h : Nat) : Nat := h + 1

/-- The slot after launch in which hop k relays the downlink frame (R17). -/
def relayOutSlot (k : Nat) : Nat := k

/-- The slot after launch in which hop k relays the answer on a route of h hops (R17, R19). -/
def relayBackSlot (h k : Nat) : Nat := 2 * h + 2 - k

/-- A repeater relays the downlink frame in its slot when it heard a good copy in the slot before (R17). -/
def relaysOut (heardIn : List Nat) (k : Nat) : Bool := heardIn.contains (relayOutSlot k - 1)

/-- A repeater relays the answer when it heard it in the slot before its relay-back slot (R17). -/
def relaysBack (heardIn : List Nat) (h k : Nat) : Bool := heardIn.contains (relayBackSlot h k - 1)

/-- The hold timer runs out: tariff 0 and HOLD_EXPIRED, the stored list kept (R18). That it does so while the local
switch is in effect too, and that tariff 0 is then also what the switch returns to, is log entry 41. -/
def Endpoint.expireHold (e : Endpoint) : Endpoint := { e with held := 0, fromLine := 0, holdExpired := true, holdLeft := 0 }

/-- One second of the hold timer (R18). -/
def Endpoint.second (e : Endpoint) : Endpoint :=
  if e.holdLeft = 0 then e
  else if e.holdLeft = 1 then e.expireHold
  else { e with holdLeft := e.holdLeft - 1 }

/-- A restart after a loss of supply: tariff 0, RESTORED, the stored list kept, the hold timer from its start
(R18). That it does so with the local switch in effect, that the switch returns to tariff 0, and that the sequence of the
last frame acted on is kept, is log entry 41. -/
def Endpoint.restart (e : Endpoint) : Endpoint :=
  { e with held := 0, fromLine := 0, restored := true, holdLeft := e.holdTime }

/-- The local switch is operated: LOCAL_OVERRIDE and the local tariff (R18). -/
def Endpoint.switchOn (e : Endpoint) (t : Tariff) : Endpoint := { e with localSwitch := true, held := t }

/-- The local switch is released: the last tariff taken from the line (R18). -/
def Endpoint.switchOff (e : Endpoint) : Endpoint := { e with localSwitch := false, held := e.fromLine }

end Sys2Proof.Machine
end

