-- ==== Sys2Proof/Safety.lean ====
section
/-! DEFINITION. The vocabulary of the statements: how a command completes, and the invariants of the part. -/

namespace Sys2Proof.Machine

/-! ## How a command completes -/

/-- The command answers a next state that the property describes. -/
def Completes (i : Instr) (s : State) (p : State → Prop) : Prop := ∃ t, exec i s = .next t ∧ p t

/-- The request leaves this state, with one reply behind those that waited: the KIND with 0x80 added, the result
code, the content (R172, R176). -/
def Answered (i : Instr) (s after : State) (kind : Byte) (code : ResultCode) (content : List Byte) : Prop :=
  exec i s = .next { after with
    link := { after.link with
      replies := after.link.replies ++ [{ kind := kind ||| 0x80, payload := code.byte :: content }] } }

/-- The request is refused: the code alone, and nothing else changes (R176). -/
def Refused (i : Instr) (s : State) (kind : Byte) (code : ResultCode) : Prop := Answered i s s kind code []

/-- The code of the newest reply. -/
def State.lastCode (s : State) : Option Byte := (s.link.replies.getLast?).bind fun f => f.payload.head?

/-- The payload of the newest reply. -/
def State.lastPayload (s : State) : Option (List Byte) := (s.link.replies.getLast?).map (·.payload)

/-- The first row whose condition holds gives the code. -/
def FirstOf : List (Prop × ResultCode) → ResultCode → Prop
  | [], _ => False
  | (p, code) :: rows, x => (p ∧ x = code) ∨ (¬p ∧ FirstOf rows x)

/-- Everything but records, queues, notices, counts, counters and the link stands as it did. -/
def SameElsewhere (s t : State) : Prop :=
  t.pending = s.pending ∧ t.mains = s.mains ∧ t.timebase = s.timebase ∧ t.transmitter = s.transmitter
    ∧ t.receivers = s.receivers ∧ t.windows = s.windows ∧ t.groups = s.groups ∧ t.arbiter = s.arbiter
    ∧ t.contexts = s.contexts ∧ t.lineSeq = s.lineSeq ∧ t.attempts = s.attempts ∧ t.refresh = s.refresh
    ∧ t.plan = s.plan ∧ t.sourceMap = s.sourceMap ∧ t.segment = s.segment ∧ t.defaultCoupler = s.defaultCoupler

/-- Every record but the one at the address stands as it did. -/
def OtherRecordsSame (a : Addr) (s t : State) : Prop := ∀ b, b ≠ a → t.lookup b = s.lookup b

/-! ## What several rules leave -/

/-- Both queues and the two counters of R87 stand as they did. -/
def NothingPlaced (s t : State) : Prop :=
  t.urgent = s.urgent ∧ t.normal = s.normal ∧ t.counters.queueFull = s.counters.queueFull
    ∧ t.counters.stranded = s.counters.stranded

/-- The entry stands at the tail of the queue, and the other queue is as it was. -/
def Enqueued (q : QueueId) (e : Entry) (s t : State) : Prop :=
  t.queue q = s.queue q ++ [e] ∧ ∀ k, k ≠ q → t.queue k = s.queue k

/-- What placing a delivery for a record leaves (R48). -/
def Delivered (a : Addr) (p : Nat) (o : Origin) (r : Record) (s t : State) : Prop :=
  let left := fun cover : Cover => t.lookup a = some { r with image := .pending cover }
  (r.cls = .immediate → r.reach = .reachable → s.hasRoom (queueFor p) = true →
      left .ownEntry ∧ Enqueued (queueFor p) { work := .deliver a, priority := p, origin := o } s t
        ∧ t.counters.queueFull = s.counters.queueFull ∧ t.counters.stranded = s.counters.stranded)
    ∧ (r.cls = .immediate → r.reach = .reachable → s.hasRoom (queueFor p) = false →
        left .refresh ∧ t.urgent = s.urgent ∧ t.normal = s.normal
          ∧ t.counters.queueFull = min (s.counters.queueFull + 1) 65535
          ∧ t.counters.stranded = min (s.counters.stranded + 1) 65535)
    ∧ (r.cls ≠ .immediate ∨ r.reach = .lost → left .refresh ∧ NothingPlaced s t)

/-- What a record takes whose desired tariff has been stated anew, r being that record but for its image (the tables of
R50 and R155): cover IN_FLIGHT in flight, the own entry kept or moved (R51), else a delivery placed (R48). -/
def CoveredAnew (a : Addr) (p : Nat) (o : Origin) (r : Record) (s t : State) : Prop :=
  (r.inFlight = true → t.lookup a = some { r with image := .pending .inFlight } ∧ NothingPlaced s t)
    ∧ (r.inFlight = false → s.ownEntry a = none → Delivered a p o r s t)
    ∧ (r.inFlight = false → ∀ (k : QueueId) (e : Entry), s.ownEntry a = some (k, e) →
        (k = .urgent → ∀ x ∈ s.normal, x.isFor a = false) →
        let moves := k = .normal ∧ e.priority < p ∧ 5 ≤ p ∧ s.urgent.length < 32
        t.lookup a = some { r with image := .pending .ownEntry }
          ∧ t.counters.queueFull = s.counters.queueFull ∧ t.counters.stranded = s.counters.stranded
          ∧ (moves → t.normal = s.normal.filter (fun x => !x.isFor a)
              ∧ t.urgent = s.urgent ++ [{ e with priority := p, origin := o }])
          ∧ (¬moves → t.urgent = s.urgent ∧ t.normal = s.normal))

/-- What settling the entry of a group leaves (R72), `given` being the members that are given its cover, as the tariff
has been stated to them: their own entries are gone; the entry of the group is kept or moved where one was queued, else
it is inserted; where it finds no room these members wait for refresh. -/
def GroupSettled (g : Group) (p : Nat) (o : Origin) (given : List Record) (s t : State) : Prop :=
  let kept := fun k : QueueId => (s.queue k).filter fun e => !given.any fun r => e.isFor r.addr
  let room := fun k : QueueId => (kept k).length < k.capacity
  let entry : Entry := { work := .group g, priority := p, origin := o }
  let queued := t.lastCode = some 0x02 ∧ t.counters = s.counters
    ∧ ∀ r ∈ given, t.lookup r.addr = some { r with image := .pending (.group g) }
  (s.groupEntry g = none → room (queueFor p) →
      queued ∧ t.queue (queueFor p) = kept (queueFor p) ++ [entry] ∧ ∀ k, k ≠ queueFor p → t.queue k = kept k)
    ∧ (s.groupEntry g = none → ¬room (queueFor p) →
      t.lastCode = some 0x08 ∧ (∀ k, t.queue k = kept k)
        ∧ (∀ r ∈ given, t.lookup r.addr = some { r with image := .pending .refresh })
        ∧ t.counters = { s.counters with
            queueFull := min (s.counters.queueFull + 1) 65535, stranded := t.counters.stranded }
        ∧ (s.counters.stranded ≤ 65535 → t.counters.stranded =
            min (s.counters.stranded + given.countP fun r => r.cls == .immediate) 65535))
    ∧ ∀ (k : QueueId) (e : Entry), s.groupEntry g = some (k, e) →
        (k = .urgent → ∀ x ∈ s.normal, x.isOfGroup g = false) →
        let moves := k = .normal ∧ e.priority < p ∧ 5 ≤ p ∧ room .urgent
        queued
          ∧ (moves → t.normal = (kept .normal).filter (fun x => !x.isOfGroup g) ∧ t.urgent = kept .urgent ++ [entry])
          ∧ (¬moves → ∀ j, t.queue j = kept j)

/-- A record whose flight is over: a re-decode that fell due is made (R41, R54). -/
def State.afterFlight (s : State) (r : Record) : Record :=
  { r with
    inFlight := false
    redecodeDue := false
    coupler := if r.redecodeDue then (s.decodeCoupler r.addr).getD r.coupler else r.coupler
    source := if r.redecodeDue then .window else r.source }

/-- A record as the recording of an ACK leaves it (R55), its coupler learned (R42) and its flight over. -/
def State.afterAck (s : State) (r : Record) (f : AckFrame) (heard : Phase) (q : Quality)
    (list : Option (List Group)) : Record :=
  s.afterFlight
    { r with
      failures := 0, reach := .reachable, held := some f.held, restored := f.restored, relayFault := f.relayFault
      localOverride := f.localOverride, holdExpired := f.holdExpired, rxQuality := some q
      endpointQuality := some f.quality, confirmed := list
      coupler := if r.source = .fixed then r.coupler else .single heard
      source := if r.source = .fixed ∨ r.coupler = .single heard then r.source else .learned }

/-- A record as a failing outcome leaves it, LOST where its count has reached its loss limit (R113, R115, R118), its
flight over. -/
def State.afterFailure (s : State) (r : Record) : Record :=
  let count := min (r.failures + 1) 15
  let limit := if r.alternate.isSome then 2 * s.attempts else s.attempts
  s.afterFlight
    (if r.reach = .reachable ∧ limit ≤ count then
      { r with
        failures := count, reach := .lost, restored := false, relayFault := false, localOverride := false
        holdExpired := false }
    else { r with failures := count })

/-- What END_OVERRIDE of the endpoint leaves, its reply aside. -/
def State.afterEndOverride (s : State) (a : Addr) : State :=
  match exec (.endOverride (0x8000 ||| a.setWidth 16)) s with
  | .next t => { t with link := s.link }
  | .fault _ => s
  | .refused _ => s

/-- The phases of a coupler are free from the boundary, and the other phases as they were (R10). -/
def FreedAt (k : Coupler) (b : Boundary) (s t : State) : Prop :=
  ∀ p : Phase, t.arbiter.freeAt p = if p ∈ k.phases then some b else s.arbiter.freeAt p

/-- The transaction is over: its context is gone, its coupler keeps the guard, the new one where nothing else is in
flight (R10, R101, R103, log entry 6), a scrub's reservation is cleared (R99), a refresh is accounted (R135). -/
def TransactionOver (c : Context) (s t : State) : Prop :=
  t.contexts = s.contexts.eraseP (fun x => x.remaining == 1)
    ∧ (s.contexts = [c] →
        FreedAt c.coupler (s.boundary + BitVec.ofNat 32 (s.arbiter.guard.staged.getD s.arbiter.guard.active)) s t)
    ∧ (s.arbiter.guard.staged = none → FreedAt c.coupler (s.boundary + BitVec.ofNat 32 s.arbiter.guard.active) s t)
    ∧ t.arbiter.reservation = (if c.job.isScrub then none else s.arbiter.reservation)
    ∧ t.arbiter.lineMask = s.arbiter.lineMask ∧ t.arbiter.slotHc = s.arbiter.slotHc
    ∧ t.arbiter.pipeline = s.arbiter.pipeline ∧ t.arbiter.guard = s.arbiter.guard
    ∧ (c.source ≠ .refresh → t.refresh = s.refresh)
    ∧ (∀ i, c.source = .refresh → s.refresh.inFlight = some i →
        t.refresh = { s.refresh with
          backlog := s.refresh.backlog - 1, pointer := (i + 1) % 960, inFlight := none
          backlogLevel := t.refresh.overLimit })
    ∧ t.lineSeq = s.lineSeq ∧ t.mains = s.mains ∧ t.groups = s.groups ∧ t.plan = s.plan ∧ t.timebase = s.timebase
    ∧ t.windows = s.windows ∧ t.link = s.link

/-! ## The table (R25) -/

/-- The table of R25: slots strictly rising and below 960, addresses distinct, at most 120 records pinned, failure
counts within 0..15 (R113). -/
def State.tableWf (s : State) : Prop :=
  (s.table.map (·.slot)).Pairwise (· < ·) ∧ (∀ r ∈ s.table, r.slot < 960) ∧ s.addrs.Nodup
    ∧ (s.table.countP fun r => r.pinned) ≤ 120 ∧ ∀ r ∈ s.table, r.failures ≤ 15

/-! ## The weighing of a boundary (R91 to R98) -/

/-- A boundary that is weighed from order 2: its ends are taken, no group frame keeps the transmitter busy, and no
extension of a scrub begins (R93, R94). -/
def State.weighs (s : State) : Prop :=
  s.mains.boundaryDue = true
    ∧ ∀ c ∈ s.contexts, c.remaining ≠ 1 ∧ c.job.group? = none
        ∧ ∀ a n x, c.job = .scrub a n (some x) → s.arbiter.reservation ≠ some (s.boundary, c.seq)

/-- A candidate on the coupler is free (R95) and compatible (R98): with one transaction in flight only where PIPELINE is
on, no staged value waits, neither of the two is a scrub or BRIDGED, and their couplers differ. -/
def State.lineTakes (s : State) (scrub : Bool) (k : Coupler) : Prop :=
  (∀ p ∈ k.phases, (∀ c ∈ s.contexts, p ∉ c.coupler.phases) ∧ ∀ b, s.arbiter.freeAt p = some b → b ≤ s.boundary)
    ∧ (s.contexts = []
        ∨ ∃ x, s.contexts = [x] ∧ s.arbiter.pipeline.active = true ∧ s.arbiter.slotHc.staged = none
            ∧ s.arbiter.pipeline.staged = none ∧ s.arbiter.guard.staged = none
            ∧ x.job.isScrub = false ∧ x.coupler ≠ .bridged ∧ scrub = false ∧ k ≠ .bridged ∧ k ≠ x.coupler)

/-- The coupler of a group frame: the one coupler of its members, else BRIDGED (R75). -/
def GroupOn (members : List Record) (k : Coupler) : Prop :=
  (∃ p, k = .single p ∧ ∀ r ∈ members, r.coupler = .single p)
    ∨ (k = .bridged ∧ ∀ p, ∃ r ∈ members, r.coupler ≠ .single p)

/-- The entry passes every test of R96; any other is passed over, or dropped. -/
def State.passes (s : State) (e : Entry) : Prop :=
  s.arbiter.lineMask < e.priority
    ∧ match e.work with
      | .group g =>
        (∀ c ∈ s.contexts, c.job.group? ≠ some g) ∧ s.members g ≠ [] ∧ ∃ k, GroupOn (s.members g) k ∧ s.lineTakes false k
      | .deliver a | .poll a | .passDeliver a _ => ∃ r, s.lookup a = some r ∧ s.lineTakes false r.coupler

/-- The GROUP entry is removed when the scan reaches it: its group has no eligible members (R77, R96). -/
def State.drops (s : State) (e : Entry) : Bool :=
  match e.work with
  | .group g =>
    decide (s.arbiter.lineMask < e.priority) && s.contexts.all (fun c => c.job.group? != some g) && (s.members g).isEmpty
  | .deliver _ | .poll _ | .passDeliver _ _ => false

/-- What a scan leaves of the entries it has gone past, in their places (R96). -/
def State.kept (s : State) (l : List Entry) : List Entry := l.filter fun e => !s.drops e

/-- The record is the refresh target: the first IMMEDIATE or DEFERRED record out of flight from slot P upward, wrapping
to 0 (R128). -/
def State.isTarget (s : State) (r : Record) : Prop :=
  r ∈ s.table ∧ r.cls ≠ .pass ∧ r.inFlight = false
    ∧ ∀ x ∈ s.table, x.cls ≠ .pass → x.inFlight = false →
        if s.refresh.pointer ≤ r.slot then s.refresh.pointer ≤ x.slot → r.slot ≤ x.slot
        else x.slot < s.refresh.pointer ∧ r.slot ≤ x.slot

/-- The Refresh Controller makes an offer (R128). -/
def State.offers (s : State) : Prop :=
  0 < s.refresh.backlog ∧ s.arbiter.lineMask < s.refresh.priority ∧ s.refresh.inFlight = none

/-- What a refresh sends the record is a scrub (R130). -/
def State.scrubs (s : State) (r : Record) : Bool := r.desired.isSome && s.refresh.kind == .scrub

/-- Refresh is passed over: no offer, or the line does not take its target (R97). -/
def State.refreshWaits (s : State) : Prop :=
  ¬s.offers ∨ (s.tableWf ∧ ∃ r, s.isTarget r ∧ ¬s.lineTakes (s.scrubs r) r.coupler)

/-- Refresh is an empty one: an offer without a target (R129). -/
def State.refreshEmpty (s : State) : Prop := s.offers ∧ ∀ r ∈ s.table, r.cls = .pass ∨ r.inFlight = true

/-- What refresh leaves where it launches nothing: an empty refresh lowers B by one and keeps P (R97, R129). -/
def RefreshPassed (s t : State) : Prop :=
  (s.refreshWaits → t.refresh = s.refresh)
    ∧ (s.refreshEmpty →
        t.refresh = { s.refresh with backlog := s.refresh.backlog - 1, backlogLevel := t.refresh.overLimit })

/-- The entry is the one that launches from the queue, `pre` being the entries before it: none of those passes, and
for the normal queue neither does an urgent entry, and refresh launches nothing (R94, R96). -/
def State.chooses (s : State) (q : QueueId) (pre : List Entry) (e : Entry) (post : List Entry) : Prop :=
  s.queue q = pre ++ e :: post ∧ (∀ x ∈ pre, ¬s.passes x) ∧ s.passes e
    ∧ (q = .normal → (∀ x ∈ s.urgent, ¬s.passes x) ∧ (s.refreshWaits ∨ s.refreshEmpty))

/-- The queues when a candidate of one has been taken, `pre` and `post` being the entries before and behind it. -/
def State.scanned (s : State) (q : QueueId) (pre post : List Entry) (k : QueueId) : List Entry :=
  if k = q then s.kept pre ++ post else if k = .urgent then s.kept s.urgent else s.normal

/-- What a launch leaves on the line: the new transaction behind those in flight, each of which takes its next slot, and
its first frame on the transmitter (R100, R106, R107). -/
def LaunchedOnLine (c : Context) (bytes : List Byte) (s t : State) : Prop :=
  t.contexts = s.contexts.map Context.advanced ++ [c] ∧ t.lineSeq = s.lineSeq + 1
    ∧ t.transmitter = some { coupler := c.coupler, bytes := bytes }
    ∧ t.receivers = Receivers.quiet ∧ t.mains.boundaryDue = false ∧ t.groups = s.groups
    ∧ t.plan = s.plan ∧ t.timebase = s.timebase ∧ t.windows = s.windows ∧ t.counts = s.counts ∧ t.link = s.link

/-- A record with what an AMEND stores in it whatever its class and its cover (R33, R34, R36). -/
def State.amended (s : State) (f : AmendFields) (r : Record) : Record :=
  let released := f.fixedCoupler = 0xFF
  { r with
    cls := (classOf f.cls).getD r.cls
    enforce := if f.enforce = 0xFF then r.enforce else flagSet f.enforce
    pinned := if f.pinned = 0xFF then r.pinned else flagSet f.pinned
    intended := if f.groups.count = 0xFF then r.intended else groupsOf f.groups
    noticeGroup := (noticeGroupOf f.noticeGroup).getD r.noticeGroup
    primary := ((readRoute s.segment f.primary).hops?).getD r.primary
    alternate := if readRoute s.segment f.alternate = .codeFE then r.alternate
      else (readRoute s.segment f.alternate).hops?
    failures := if amendCarriesRoute f s.segment = true ∧ r.reach = .reachable then 0 else r.failures
    coupler := (couplerOf f.fixedCoupler).getD
      (if released then (s.decodeCoupler r.addr).getD r.coupler else r.coupler)
    source := if (couplerOf f.fixedCoupler).isSome then .fixed else if released then .window else r.source
    redecodeDue := if (couplerOf f.fixedCoupler).isSome = true ∨ released then false else r.redecodeDue }

/-- A queue as an AMEND that carries a route leaves it: a RETRY entry of the record takes the route that the record's
failure count now selects (R33). -/
def State.amendedQueue (s : State) (f : AmendFields) (r : Record) (q : QueueId) : List Entry :=
  let x := s.amended f r
  let route := if x.reach = .reachable ∧ s.attempts ≤ x.failures then x.alternate.getD x.primary else x.primary
  (s.queue q).map fun e =>
    match e.origin with
    | .retry _ => if amendCarriesRoute f s.segment = true ∧ e.isFor r.addr = true then { e with origin := .retry route } else e
    | .request | .plan | .overrideEnd | .repair => e

/-! ## Notice lines (R162, R165, R167) -/

/-- What is left where some lines are tested by R165 and rises of others are taken by R167, both in line-number order
(log entry 11): a tested line that is unmasked, true and not awaiting becomes awaiting; it, and an unmasked line that has
risen, gets a notice with its tag unless one waits for the line; a rise that meets a waiting notice counts as merged. -/
def LinesTaken (tested risen : Line → Bool) (s t : State) : Prop :=
  let caused := fun l : Line => tested l && !s.lines[l].masked && t.lineLevel l && !s.lines[l].awaiting
  let edge := fun l : Line => risen l && !s.lines[l].masked
  (∀ l : Line, t.lines[l] = { s.lines[l] with awaiting := s.lines[l].awaiting || caused l })
    ∧ t.fifo = s.fifo ++ ((List.finRange 20).filter fun l => (caused l || edge l) && !s.noticeWaiting l).map
        (fun l => { line := l, tag := s.lines[l].tag })
    ∧ (s.counters.merged ≤ 65535 → t.counters.merged =
        min (s.counters.merged + (List.finRange 20).countP fun l => edge l && s.noticeWaiting l) 65535)

/-- What is left of the notice lines by a change of levels: every line that goes from false to true has risen, and is
tested in LEVEL mode or taken by R167 in EDGE mode; any other line stands as it did (R162). -/
def ChangeNoticed (s t : State) : Prop :=
  let rises := fun l : Line => !s.lineLevel l && t.lineLevel l
  LinesTaken (fun l => rises l && !s.lines[l].edge) (fun l => rises l && s.lines[l].edge) s t

/-! ## Plan entries and the requests they stand for (R148) -/

/-- The units of a range, 0 after 255 (R43). -/
def unitsOf (g : Segment) (start : Byte) (count : Nat) : List Addr :=
  (List.range count).map fun i => g ++ (start + BitVec.ofNat 8 i)

/-- The unit is skipped by R43: no record, a pinned record or a PASS record. -/
def State.passesOver (s : State) (a : Addr) : Prop := ∀ r, s.lookup a = some r → r.pinned = true ∨ r.cls = .pass

/-- The request that a plan entry stands for; none for an OVERRIDE or an END_OVERRIDE of a range. -/
def PlanEntry.request? (e : PlanEntry) : Option Instr :=
  let p : Byte := BitVec.ofNat 8 e.priority
  match e.target, e.action with
  | .endpoint a, .set t => some (.set (0x8000 ||| a.setWidth 16) (t.setWidth 8) p)
  | .group g, .set t => some (.setGroup (BitVec.ofNat 8 g.val) (t.setWidth 8) p)
  | .range g start n, .set t => some (.setRange (g.setWidth 8) start (BitVec.ofNat 16 n) (t.setWidth 8) p)
  | .endpoint a, .override t m => some (.override (0x8000 ||| a.setWidth 16) (t.setWidth 8) (BitVec.ofNat 16 m) p)
  | .group g, .override t m => some (.overrideGroup (BitVec.ofNat 16 g.val) (t.setWidth 8) (BitVec.ofNat 16 m) p)
  | .endpoint a, .endOverride => some (.endOverride (0x8000 ||| a.setWidth 16))
  | .group g, .endOverride => some (.endOverrideGroup (BitVec.ofNat 16 g.val))
  | .range _ _ _, .override _ _ => none
  | .range _ _ _, .endOverride => none

/-- The values of a plan entry lie in their ranges (R144). -/
def PlanEntry.inRange (e : PlanEntry) : Prop :=
  1 ≤ e.priority ∧ e.priority ≤ 7
    ∧ (∀ t m, e.action = .override t m → 1 ≤ m ∧ m ≤ 1440)
    ∧ ∀ g start n, e.target = .range g start n → 1 ≤ n ∧ n ≤ 256

/-- The firing of the entry has nothing to act on (R148). -/
def PlanEntry.misses (e : PlanEntry) (s : State) : Prop :=
  (∃ a, e.target = .endpoint a ∧ s.lookup a = none)
    ∨ (∃ g, e.target = .group g ∧ e.action ≠ .endOverride ∧ s.members g = [])
    ∨ (∃ g, e.target = .group g ∧ e.action = .endOverride ∧ ∀ r ∈ s.table, g ∉ r.intended)
    ∨ (∃ g start n, e.target = .range g start n ∧ ∀ a ∈ unitsOf g start n,
        s.passesOver a ∨ ∃ t m, e.action = .override t m ∧ ∀ r, s.lookup a = some r → r.desired = none)

/-! ## Invariants -/

/-- The queues of R85: at most 32 and 128 entries, priorities 5..7 urgent and 1..4 normal; a transaction launched from
a queue has a priority of that queue, which its retry goes back to (R116); and what may yet place an entry, a refresh,
a plan entry or an override, has a priority 1..7. -/
def State.queuesWf (s : State) : Prop :=
  s.urgent.length ≤ 32 ∧ s.normal.length ≤ 128
    ∧ (∀ e ∈ s.urgent, 5 ≤ e.priority ∧ e.priority ≤ 7) ∧ (∀ e ∈ s.normal, 1 ≤ e.priority ∧ e.priority < 5)
    ∧ (∀ c ∈ s.contexts, 1 ≤ c.priority ∧ c.priority ≤ 7
        ∧ (c.source = .urgent → 5 ≤ c.priority) ∧ (c.source = .normal → c.priority < 5))
    ∧ 1 ≤ s.refresh.priority ∧ s.refresh.priority ≤ 7
    ∧ (∀ e ∈ s.plan, 1 ≤ e.priority ∧ e.priority ≤ 7)
    ∧ ∀ r ∈ s.table, ∀ o, r.override = some o → 1 ≤ o.priority ∧ o.priority ≤ 7

/-- At most two transactions are in flight (R98, R105); none is, and no boundary is due, unless the line is UP (R6);
and the grid is there exactly in UP (R1). -/
def State.flightWf (s : State) : Prop :=
  s.contexts.length ≤ 2
    ∧ (s.contexts ≠ [] → s.mains.line = .up) ∧ (s.mains.boundaryDue = true → s.mains.line = .up)
    ∧ (s.mains.line = .up ↔ s.mains.grid.isSome = true)

/-- The line parameters stay legal (R8, R91, R102, R181), and the half-cycles closed stay below the slot's length
(R4). -/
def State.gridWf (s : State) : Prop :=
  (∀ n, n = s.arbiter.slotHc.active ∨ s.arbiter.slotHc.staged = some n → n = 8 ∨ n = 12 ∨ n = 16 ∨ n = 24)
    ∧ (∀ n, n = s.arbiter.guard.active ∨ s.arbiter.guard.staged = some n → n ≤ 3)
    ∧ s.arbiter.lineMask ≤ 7 ∧ 1 ≤ s.attempts ∧ s.attempts ≤ 7
    ∧ ∀ g, s.mains.grid = some g →
        (g.length = 8 ∨ g.length = 12 ∨ g.length = 16 ∨ g.length = 24) ∧ g.half < g.length
          ∧ (s.mains.boundaryDue = true → g.half = 0)

/-- B, M and P stay in their ranges whatever the mode (R123), and so do the parameters. -/
def State.refreshWf (s : State) : Prop :=
  s.table.length ≤ 960
    ∧ s.refresh.backlog ≤ 1023 ∧ s.refresh.missed ≤ 1023 ∧ s.refresh.pointer < 960
    ∧ 1 ≤ s.refresh.interval ∧ s.refresh.interval ≤ 3600
    ∧ 1 ≤ s.refresh.priority ∧ s.refresh.priority ≤ 7
    ∧ 1 ≤ s.refresh.limit ∧ s.refresh.limit ≤ 1023

/-- The level of REFRESH_BACKLOG is the one R140 gives. -/
def State.backlogWf (s : State) : Prop := s.refresh.backlogLevel = s.refresh.overLimit

/-- No two notices for one line wait (R169), and only a LEVEL line is awaiting (R164). -/
def State.noticeWf (s : State) : Prop :=
  (s.fifo.map (·.line)).Nodup ∧ ∀ l : Line, s.lines[l].awaiting = true → s.lines[l].edge = false

/-- No cause is missed: an unmasked LEVEL line whose level is true is awaiting (R165, R166). -/
def State.noCauseMissed (s : State) : Prop :=
  ∀ l : Line, s.lines[l].masked = false → s.lines[l].edge = false → s.lineLevel l = true →
    s.lines[l].awaiting = true

/-- The eleven counters stay 16-bit (R180). -/
def Counters.wf (c : Counters) : Prop :=
  c.garbled ≤ 65535 ∧ c.silent ≤ 65535 ∧ c.authFail ≤ 65535 ∧ c.stale ≤ 65535 ∧ c.stranded ≤ 65535
    ∧ c.queueFull ≤ 65535 ∧ c.planMiss ≤ 65535 ∧ c.merged ≤ 65535 ∧ c.linkCrc ≤ 65535 ∧ c.linkGap ≤ 65535
    ∧ c.linkOverrun ≤ 65535

/-- Each endpoint source count is the number of records of that notice group with that condition (R160). -/
def State.countsWf (s : State) : Prop :=
  ∀ (k : Cond) (n : NoticeGroup),
    s.counts[countIndex k n] = s.table.countP fun r => r.flag k && r.noticeGroup == n

/-- The plan of R144: at most 64 entries in order of due time, ids distinct and below 64. -/
def State.planWf (s : State) : Prop :=
  s.plan.length ≤ 64 ∧ (s.plan.map (·.due.stamp)).Pairwise (· ≤ ·) ∧ (s.plan.map (·.id)).Nodup
    ∧ ∀ e ∈ s.plan, e.id < 64

/-- What a due check at a clock position leaves (R147, R149): every entry that is due has fired once, in the plan's
order, and no other; the ONCE ones are gone, the DAILY ones stand again at the first day that puts their second after the
clock, unless that lies beyond day 65535. -/
def DueChecked (now : Clock) (s t : State) : Prop :=
  let due := s.plan.filter fun e => decide (e.due.stamp ≤ now.stamp)
  ∃ plan : List PlanEntry, t = { due.foldl (fun u e => fireEntry e u) s with plan := plan }
    ∧ (∀ x, x ∈ plan ↔
        (x ∈ s.plan ∧ now.stamp < x.due.stamp)
          ∨ ∃ e ∈ due, e.daily = true
              ∧ let day := if now.second < e.due.second then now.day else now.day + 1
                day ≤ 65535 ∧ x = { e with due := { e.due with day := day } })
    ∧ t.planWf

/-! ### Records, entries and flights (R44, R45, R47) -/

/-- What R44, R28 and R150 say of a record alone: NONE exactly for PASS, which wants nothing; PENDING, CONFIRMED and
SHARED only with a desired tariff, and so an override; in flight a PENDING record has cover IN_FLIGHT, and only
then. -/
def Record.imageWf (r : Record) : Prop :=
  (r.cls = .pass ↔ r.image = .none)
    ∧ (r.cls = .pass → r.desired = none ∧ r.override = none)
    ∧ (r.isPending = true ∨ r.image = .confirmed ∨ r.image = .shared ∨ r.override.isSome = true →
        r.desired.isSome = true)
    ∧ (r.isPending = true → r.inFlight = true → r.image = .pending .inFlight)
    ∧ (r.image = .pending .inFlight → r.inFlight = true)

/-- The group frame in flight, if it is of this group, serves the record: it carries another tariff than the record
wants, and so finds it at its end, or the record holds its mark (R76, R79). -/
def State.servesMember (s : State) (g : Group) (r : Record) : Prop :=
  ∃ c ∈ s.contexts, ∃ t n, c.job = .group g t n ∧ (r.mark = some c.seq ∨ r.desired ≠ some t)

/-- The cover of a PENDING record is true (R45): OWN_ENTRY has an entry, GROUP(g) a member's frame queued or in flight,
REFRESH none of these. -/
def State.coverWf (s : State) (r : Record) : Prop :=
  (r.image = .pending .ownEntry → (s.ownEntry r.addr).isSome = true)
    ∧ (∀ g, r.image = .pending (.group g) →
        r.eligible g = true ∧ s.ownEntry r.addr = none ∧ ((s.groupEntry g).isSome = true ∨ s.servesMember g r))
    ∧ (r.image = .pending .refresh → s.ownEntry r.addr = none)

/-- Whom an entry is for: a record or a group. -/
def Work.owner : Work → Addr ⊕ Group
  | .deliver a | .poll a | .passDeliver a _ => .inl a
  | .group g => .inr g

/-- A group mark is that of the group frame in flight (R81), on a record that is not in flight and waits neither for an
own entry nor for a refresh (R76). -/
def State.markWf (s : State) (r : Record) : Prop :=
  ∀ q, r.mark = some q →
    r.inFlight = false ∧ r.image ≠ .pending .ownEntry ∧ r.image ≠ .pending .refresh
      ∧ ∃ c ∈ s.contexts, c.seq = q ∧ c.job.group?.isSome = true

/-- An entry is that of a record not in flight, of a kind its class has; a DELIVER entry is that of a REACHABLE record
PENDING with cover OWN_ENTRY (R47, R86). -/
def State.entryWf (s : State) (e : Entry) : Prop :=
  ∀ a, e.work.target? = some a → ∃ r, s.lookup a = some r ∧ r.inFlight = false
    ∧ (r.cls = .pass ↔ ∃ t, e.work = .passDeliver a t)
    ∧ (e.work = .deliver a → r.reach = .reachable ∧ r.image = .pending .ownEntry)

/-- An individual transaction is that of a record in flight, of a kind its class has, on the record's coupler unless a
scrub has taught the record another; a SET and a scrub are those of a record with a desired tariff, and a SET of an
entry is that of a PENDING record until a FORGET orphans it (R42, R53, R60, R107). -/
def State.flownWf (s : State) (c : Context) : Prop :=
  ∀ a, c.job.target? = some a → ∃ r, s.lookup a = some r ∧ r.inFlight = true ∧ (c.job.isScrub = true ∨ r.coupler = c.coupler)
    ∧ (r.cls = .pass ↔ ∃ t l, c.job = .passSet a t l)
    ∧ ((∃ n t l, c.job = .set a n t l) ∨ c.job.isScrub = true → r.desired.isSome = true)
    ∧ ((∃ n t l, c.job = .set a n t l) → c.source ≠ .refresh → c.orphaned = false → r.image = .pending .inFlight)

/-- Records, entries and flights fit one another: at most one entry for a record and for a group, none for a record in
flight, one transaction for each record in flight, one group frame at most, every cover true (R44, R45, R47, R87). -/
def State.recordsWf (s : State) : Prop :=
  s.addrs.Nodup
    ∧ (∀ r ∈ s.table, r.imageWf ∧ s.coverWf r ∧ s.markWf r
        ∧ (r.inFlight = true → (s.contexts.countP fun c => c.job.target? == some r.addr) = 1))
    ∧ (∀ e ∈ s.urgent ++ s.normal, s.entryWf e) ∧ ((s.urgent ++ s.normal).map (·.work.owner)).Nodup
    ∧ (∀ c ∈ s.contexts, s.flownWf c) ∧ (s.contexts.countP fun c => c.job.group?.isSome) ≤ 1

end Sys2Proof.Machine
end

