-- ==== Sys2Proof/Certificates/Slice0/Obligations.lean ====
section
/-! DEFINITION. The statements for the provers. A command that is a request is Answered with its code and content on
the state it leaves; an event Completes with what it leaves. -/

open Sys2Proof Sys2Proof.Machine

/-! ## The queue and the reset -/

/-- A step carries out the command at the front of the queue, on the state with the queue's rest. That the part idles
on an empty queue is the model's choice, log entry 26. -/
def Obligations.StepRunsFrontCommand : Prop :=
  (∀ (i : Instr) (rest : List Instr) (s : State),
    step { s with pending := i :: rest } = exec i { s with pending := rest })
  ∧ ∀ s : State, s.pending = [] → step s = .next s

/-- What the reset clauses of the rules give, the default map of R162 among it. -/
def Obligations.ResetLeavesStatedValues : Prop :=
  State.reset.mains.line = .acquiring ∧ State.reset.mains.freq = none ∧ State.reset.mains.good = 0
    ∧ State.reset.mains.runSum = 0 ∧ State.reset.mains.missing = 0 ∧ State.reset.mains.returnFlag = false
    ∧ State.reset.mains.grid = none
    ∧ State.reset.timebase.uptime = 0 ∧ State.reset.timebase.clock = none
    ∧ State.reset.table = [] ∧ State.reset.urgent = [] ∧ State.reset.normal = [] ∧ State.reset.contexts = []
    ∧ (∀ w ∈ State.reset.windows.toList, w = { base := 0, limit := 0, coupler := .a, enabled := false })
    ∧ (∀ g : Group, State.reset.groups[g] = { tariff := none, repeats := 1 })
    ∧ State.reset.arbiter.freeA = none ∧ State.reset.arbiter.freeB = none ∧ State.reset.arbiter.freeC = none
    ∧ State.reset.arbiter.reservation = none ∧ State.reset.arbiter.lineMask = 0
    ∧ State.reset.arbiter.slotHc = { active := 12, staged := none }
    ∧ State.reset.arbiter.pipeline = { active := false, staged := none }
    ∧ State.reset.arbiter.guard = { active := 1, staged := none }
    ∧ State.reset.lineSeq = 0 ∧ State.reset.attempts = 3
    ∧ State.reset.refresh =
        { mode := .auto, interval := 20, kind := .reassert, priority := 3, limit := 64, timer := 20, backlog := 0
          missed := 0, pointer := 0, inFlight := none, backlogLevel := false }
    ∧ State.reset.plan = [] ∧ (∀ n ∈ State.reset.counts.toList, n = 0)
    ∧ (∀ l : Line, State.reset.lines[l] = { masked := true, edge := false, tag := BitVec.ofNat 8 l.val, awaiting := false })
    ∧ State.reset.fifo = [] ∧ State.reset.segment = 0 ∧ State.reset.defaultCoupler = some .bridged
    ∧ State.reset.counters = Counters.zero
    ∧ State.reset.link.framer = .hunting ∧ State.reset.link.buffer = .free ∧ State.reset.link.ready = true
    ∧ State.reset.link.replies = []
    ∧ (∀ i : SourceId, i.val < 48 → State.reset.sourceMap[i] = some (Fin.ofNat 20 (i.val / 8)))
    ∧ State.reset.sourceMap[(48 : SourceId)] = some 18 ∧ State.reset.sourceMap[(49 : SourceId)] = some 19

/-- POWER_ON_RESET brings every block to its reset state, reads the straps (unconnected ones as 01) and places a ready
frame. That the commands outside the part keep waiting is the model's choice, log entry 25. -/
def Obligations.PowerOnResetReturnsToReset : Prop :=
  ∀ (rate1 rate0 : Option Bool) (s : State),
    exec (.powerOnReset rate1 rate0) s
      = .next { State.reset with
          pending := s.pending
          link := { framer := .hunting, buffer := .free, ready := true, replies := [], sending := none
                    strap := BitVec.ofBool (rate1.getD false) ++ BitVec.ofBool (rate0.getD true) } }

/-! ## Mains timing -/

/-- A crossing in ACQUIRING starts a run when there is none or when its spacing is outside 7.5 to 11.0 ms, and carries
a run on below 16. -/
def Obligations.CrossingInAcquiringIsJudged : Prop :=
  ∀ (time : Nat) (s : State), s.mains.boundaryDue = false → s.mains.line = .acquiring →
    ((s.mains.good = 0 ∨ time - s.mains.refTime < 7500 ∨ 11000 < time - s.mains.refTime) →
      exec (.zeroCrossing time) s
        = .next { s with mains := { s.mains with good := 1, runSum := 0, refTime := time } })
    ∧ (1 ≤ s.mains.good → s.mains.good ≤ 14 →
      7500 ≤ time - s.mains.refTime → time - s.mains.refTime ≤ 11000 →
      exec (.zeroCrossing time) s
        = .next { s with mains := { s.mains with
            good := s.mains.good + 1, runSum := s.mains.runSum + (time - s.mains.refTime), refTime := time } })

/-- The sixteenth good crossing locks: UP, a new grid, the frequency by the mean, a mean halfway giving 60 Hz, every
staged value active and none staged, every coupler free from boundary 1; with the return flag set it is a mains return
with its restore sweep, else not. -/
def Obligations.SixteenthCrossingLocks : Prop :=
  ∀ (time : Nat) (s : State), s.mains.boundaryDue = false → s.mains.line = .acquiring → s.mains.good = 15 →
    7500 ≤ time - s.mains.refTime → time - s.mains.refTime ≤ 11000 →
    Completes (.zeroCrossing time) s fun t =>
      t.mains.line = .up ∧ t.mains.missing = 0 ∧ t.mains.returnFlag = false ∧ t.mains.boundaryDue = false
        ∧ t.mains.grid = some { boundary := 0, half := 0, length := s.arbiter.slotHc.staged.getD s.arbiter.slotHc.active }
        ∧ (2 * (s.mains.runSum + (time - s.mains.refTime)) ≤ 15 * 18330 → t.mains.freq = some .hz60)
        ∧ (15 * 18330 < 2 * (s.mains.runSum + (time - s.mains.refTime)) → t.mains.freq = some .hz50)
        ∧ t.arbiter.freeA = some 1 ∧ t.arbiter.freeB = some 1 ∧ t.arbiter.freeC = some 1
        ∧ t.arbiter.slotHc = { active := s.arbiter.slotHc.staged.getD s.arbiter.slotHc.active, staged := none }
        ∧ t.arbiter.pipeline = { active := s.arbiter.pipeline.staged.getD s.arbiter.pipeline.active, staged := none }
        ∧ t.arbiter.guard = { active := s.arbiter.guard.staged.getD s.arbiter.guard.active, staged := none }
        ∧ (s.mains.returnFlag = false → t.refresh = s.refresh ∧ t.fifo = s.fifo)
        ∧ (s.mains.returnFlag = true → t.refresh.pointer = 0
            ∧ (s.refresh.mode = .auto →
                t.refresh.backlog = min (s.table.countP fun r => r.cls != .pass) 1023
                  ∧ t.refresh.missed = s.refresh.missed)
            ∧ (s.refresh.mode = .external →
                t.refresh.missed = (s.table.countP fun r => r.cls != .pass) ∧ t.refresh.backlog = s.refresh.backlog))
        ∧ t.table = s.table ∧ t.urgent = s.urgent ∧ t.normal = s.normal

/-- A crossing in UP: disregarded below half a half-cycle, else it closes one, and with the slot's last it produces a
boundary. That the boundary is left due, the slot keeping its old length until SLOT_BOUNDARY takes it, is the model's
choice, log entry 4. -/
def Obligations.CrossingInUpIsCounted : Prop :=
  ∀ (time : Nat) (s : State) (g : Grid) (f : Frequency), s.mains.boundaryDue = false → s.mains.line = .up →
    s.mains.grid = some g → s.mains.freq = some f →
    let least := if f = .hz50 then 5000 else 4170
    (time < s.mains.refTime + least → exec (.zeroCrossing time) s = .next s)
    ∧ (s.mains.refTime + least ≤ time → g.half + 1 ≠ g.length →
        exec (.zeroCrossing time) s
          = .next { s with mains := { s.mains with
              missing := 0, refTime := time, grid := some { g with half := g.half + 1 } } })
    ∧ (s.mains.refTime + least ≤ time → g.half + 1 = g.length →
        exec (.zeroCrossing time) s
          = .next { s with mains := { s.mains with
              missing := 0, refTime := time, boundaryDue := true
              grid := some { g with boundary := g.boundary + 1, half := 0 } } })

/-- The first crossing in DOWN begins to acquire, the return flag as it was; 15 ms without a crossing in ACQUIRING end
the run. -/
def Obligations.RunsBeginAndEnd : Prop :=
  (∀ (time : Nat) (s : State), s.mains.boundaryDue = false → s.mains.line = .down →
    exec (.zeroCrossing time) s
      = .next { s with mains := { s.mains with line := .acquiring, good := 1, runSum := 0, refTime := time } })
  ∧ ∀ s : State, s.mains.line = .acquiring →
    exec .acquiringMissingCrossing s = .next { s with mains := { s.mains with good := 0, runSum := 0 } }

/-- A missing crossing in UP: a substitute crossing N after the last one closes a half-cycle, and with the slot's last
it produces a boundary. That the boundary is left due, the slot keeping its old length until SLOT_BOUNDARY takes it, is
the model's choice, log entry 4. -/
def Obligations.MissingCrossingIsSubstituted : Prop :=
  ∀ (s : State) (g : Grid) (f : Frequency), s.mains.boundaryDue = false → s.mains.line = .up →
    s.mains.missing = 0 → s.mains.grid = some g → s.mains.freq = some f →
    let n := if f = .hz50 then 10000 else 8330
    (g.half + 1 ≠ g.length →
        exec .missingCrossing s
          = .next { s with mains := { s.mains with
              missing := 1, refTime := s.mains.refTime + n, grid := some { g with half := g.half + 1 } } })
    ∧ (g.half + 1 = g.length →
        exec .missingCrossing s
          = .next { s with mains := { s.mains with
              missing := 1, refTime := s.mains.refTime + n, boundaryDue := true
              grid := some { g with boundary := g.boundary + 1, half := 0 } } })

/-- Mains loss: the line is DOWN without a grid, nothing is in flight, the queues are empty, and every image with a
desired tariff is UNKNOWN, its cover and its mark gone; what R66 and R138 keep is kept. (That the run sum is kept too
is read from the rules, log entry 32.) -/
def Obligations.MainsLossStopsTheLine : Prop :=
  ∀ s : State, s.mains.boundaryDue = false → s.mains.line = .up → s.mains.missing = 1 →
    Completes .mainsLoss s fun t =>
      t.mains = { s.mains with
          line := .down, grid := none, boundaryDue := false, missing := 0, good := 0, returnFlag := true }
        ∧ t.contexts = [] ∧ t.transmitter = none ∧ t.receivers = Receivers.quiet
        ∧ t.urgent = [] ∧ t.normal = []
        ∧ t.arbiter = { s.arbiter with freeA := none, freeB := none, freeC := none, reservation := none }
        ∧ t.refresh = { s.refresh with inFlight := none }
        ∧ t.groups = s.groups ∧ t.plan = s.plan ∧ t.timebase = s.timebase ∧ t.lineSeq = s.lineSeq
        ∧ t.counts = s.counts ∧ t.windows = s.windows ∧ t.link = s.link
        ∧ (∀ a : Addr, s.lookup a = none → t.lookup a = none)
        ∧ ∀ (a : Addr) (r : Record), s.lookup a = some r →
            t.lookup a = some { s.afterFlight r with
              mark := none, image := if r.cls = .pass ∨ r.desired = none then r.image else .unknown }

/-! ## The slot boundary and the arbiter -/

/-- A boundary at which every transaction in flight ends, none of them the POLL part of a scrub, or at which none is in
flight, applies the staged values, whatever waits and whatever launches: none is then staged, the slot takes the new
length, and with none in flight the free-at values stand; with nothing waiting nothing else happens. (A boundary that
closes the POLL part of a scrub is, by LaunchesAreBounded, that of the state its decision leaves.) While any
transaction goes on, what is staged waits, and the slot takes the active length. A boundary with one transaction in
flight that goes on: an individual one takes the stage of its next slot, and with PIPELINE off nothing launches beside
it; a group frame sends its next copy, and nothing launches. (That SLOT_BOUNDARY takes the ends that no row took is log
entries 4 and 5; the bit of the frame that no layout names is log entry 39.) -/
def Obligations.QuietBoundaryAppliesStaged : Prop :=
  (∀ (s : State) (g : Grid), s.mains.boundaryDue = true → s.mains.grid = some g → s.contexts = [] →
    s.urgent = [] → s.normal = [] → s.refresh.backlog = 0 →
    let hc := s.arbiter.slotHc.staged.getD s.arbiter.slotHc.active
    exec .slotBoundary s
      = .next { s with
          mains := { s.mains with boundaryDue := false, grid := some { g with length := hc } }
          arbiter := { s.arbiter with
            slotHc := { active := hc, staged := none }
            pipeline := { active := s.arbiter.pipeline.staged.getD s.arbiter.pipeline.active, staged := none }
            guard := { active := s.arbiter.guard.staged.getD s.arbiter.guard.active, staged := none } }
          receivers := Receivers.quiet
          transmitter := none })
  ∧ (∀ (s : State) (b : Grid), s.mains.boundaryDue = true → s.mains.grid = some b →
    ((∀ c ∈ s.contexts, c.remaining = 1 ∧ ∀ a n, c.job ≠ .scrub a n none) →
      let hc := s.arbiter.slotHc.staged.getD s.arbiter.slotHc.active
      Completes .slotBoundary s fun t =>
        t.mains = { s.mains with boundaryDue := false, grid := some { b with length := hc } }
          ∧ t.arbiter.slotHc = { active := hc, staged := none }
          ∧ t.arbiter.pipeline
              = { active := s.arbiter.pipeline.staged.getD s.arbiter.pipeline.active, staged := none }
          ∧ t.arbiter.guard = { active := s.arbiter.guard.staged.getD s.arbiter.guard.active, staged := none }
          ∧ t.arbiter.lineMask = s.arbiter.lineMask ∧ t.receivers = Receivers.quiet
          ∧ (s.contexts = [] → ∀ p, t.arbiter.freeAt p = s.arbiter.freeAt p))
    ∧ ((∃ c ∈ s.contexts, c.remaining ≠ 1) →
      Completes .slotBoundary s fun t =>
        t.mains = { s.mains with boundaryDue := false, grid := some { b with length := s.arbiter.slotHc.active } }
          ∧ t.arbiter.slotHc = s.arbiter.slotHc ∧ t.arbiter.pipeline = s.arbiter.pipeline
          ∧ t.arbiter.guard = s.arbiter.guard ∧ t.arbiter.lineMask = s.arbiter.lineMask
          ∧ t.receivers = Receivers.quiet))
  ∧ (∀ (s : State) (c : Context) (a : Addr) (j : Nat),
    s.mains.boundaryDue = true → s.contexts = [c] → c.job.target? = some a →
    (∀ n x, c.job = .scrub a n (some x) → s.arbiter.reservation ≠ some (s.boundary, c.seq)) →
    1 ≤ j → j ≤ 2 * c.route.length + 1 → c.remaining = 3 + 2 * c.route.length - j →
    let h := c.route.length
    let moved := { c with
      remaining := 2 + 2 * h - j
      stage := if j ≤ h then Stage.relayOut else if j = h + 1 then .answer else .relayBack }
    Completes .slotBoundary s fun t =>
      t.contexts.head? = some moved ∧ t.receivers = Receivers.quiet ∧ t.mains.boundaryDue = false
        ∧ t.arbiter = s.arbiter
        ∧ (s.arbiter.pipeline.active = false →
            t.contexts = [moved] ∧ t.transmitter = none ∧ t.lineSeq = s.lineSeq ∧ t.table = s.table))
  ∧ ∀ (s : State) (c : Context) (b : Grid) (g : Group) (tf : Tariff) (n : Fin 4) (j : Nat),
    s.mains.boundaryDue = true → s.mains.grid = some b → s.contexts = [c] → c.job = .group g tf n →
    1 ≤ j → j ≤ n.val → c.remaining = 2 + n.val - j →
    exec .slotBoundary s
      = .next { s with
          mains := { s.mains with boundaryDue := false, grid := some { b with length := s.arbiter.slotHc.active } }
          receivers := Receivers.quiet
          contexts := [{ c with remaining := 1 + n.val - j, stage := .repeated }]
          transmitter := some { coupler := c.coupler, bytes := groupFrame c.seq g tf j } }

/-- With nothing in flight, the DELIVER entry at the head of the urgent queue launches when its priority is above the
mask and its coupler is free: a SET with the record's tariff, list, revision, route and coupler and the next sequence;
the record is in flight, a PENDING one with cover IN_FLIGHT. The route is the one a RETRY entry carries; else the
alternate route for a REACHABLE record that has one and whose failure count has reached ATTEMPTS; else the primary
route. In general, at a boundary that is weighed from order 2, the first entry of a queue that passes R96 launches:
every entry before it is masked, or has a coupler that is not free or not compatible, and keeps its place, or is a
GROUP entry without eligible members, and is dropped. An entry of the normal queue launches where no urgent entry
passes and refresh launches nothing, being passed over or an empty one. With one transaction in flight the coupler test
is that of R98, and the launch stands behind it. A DELIVER entry launches a SET, a POLL entry a POLL, a PASS_DELIVER
entry a PASS_SET, and a GROUP entry a group frame on the one coupler of its members or BRIDGED, which marks the members
that want its tariff. (The bits of a frame that no layout names, log entry 39, and the order of its group list, log
entry 42, are the model's choice.) -/
def Obligations.BoundaryLaunchesUrgentHead : Prop :=
  (∀ (s : State) (e : Entry) (es : List Entry) (a : Addr) (r : Record) (d : Tariff),
      s.mains.boundaryDue = true → s.contexts = [] → s.urgent = e :: es → e.work = .deliver a →
      s.lookup a = some r → r.desired = some d → s.arbiter.lineMask < e.priority →
      (∀ p ∈ r.coupler.phases, ∀ b, s.arbiter.freeAt p = some b → b ≤ s.boundary) →
      Completes .slotBoundary s fun t =>
        t.contexts =
            [{ job := .set r.addr r.revision d (if r.pinned then [] else r.intended), source := .urgent
               coupler := r.coupler, route := e.route s.attempts r, seq := s.lineSeq, stage := .outbound
               remaining := 2 + 2 * (e.route s.attempts r).length, priority := e.priority, orphaned := false }]
          ∧ t.lineSeq = s.lineSeq + 1
          ∧ t.urgent = es.filter (fun x => !x.isFor r.addr) ∧ t.normal = s.normal.filter (fun x => !x.isFor r.addr)
          ∧ t.transmitter = some
              { coupler := r.coupler
                bytes := setFrame s.lineSeq r.addr (e.route s.attempts r) d (if r.pinned then [] else r.intended) }
          ∧ (∃ r', t.lookup r.addr = some r' ∧ r'.inFlight = true
              ∧ (r.isPending = true → r'.image = .pending .inFlight) ∧ (r.isPending = false → r'.image = r.image))
          ∧ OtherRecordsSame r.addr s t
          ∧ t.mains.boundaryDue = false ∧ t.counters = s.counters ∧ t.fifo = s.fifo)
  ∧ ∀ (attempts : Nat) (e : Entry) (r : Record),
      (∀ l, e.origin = .retry l → e.route attempts r = l)
      ∧ ((∀ l, e.origin ≠ .retry l) →
          (∀ l, r.reach = .reachable → r.alternate = some l → attempts ≤ r.failures → e.route attempts r = l)
          ∧ (r.reach = .reachable → r.failures < attempts → e.route attempts r = r.primary)
          ∧ (r.alternate = none → e.route attempts r = r.primary)
          ∧ (r.reach = .lost → e.route attempts r = r.primary))
  ∧ (∀ (s : State) (q : QueueId) (pre post : List Entry) (e : Entry) (a : Addr) (r : Record) (job : Job)
      (bytes : List Byte), s.weighs → s.chooses q pre e post → s.lookup a = some r →
      let route := e.route s.attempts r
      let list := if r.pinned then [] else r.intended
      ((∃ d, e.work = .deliver a ∧ r.desired = some d ∧ job = .set a r.revision d list
            ∧ bytes = setFrame s.lineSeq a route d list)
        ∨ (e.work = .poll a ∧ job = .poll a r.revision ∧ bytes = pollFrame s.lineSeq a route)
        ∨ (∃ d, e.work = .passDeliver a d ∧ job = .passSet a d [] ∧ bytes = setFrame s.lineSeq a route d [])) →
      Completes .slotBoundary s fun t =>
        LaunchedOnLine
            { job := job, source := if q = .urgent then .urgent else .normal, coupler := r.coupler, route := route
              seq := s.lineSeq, stage := .outbound, remaining := 2 + 2 * route.length, priority := e.priority
              orphaned := false } bytes s t
          ∧ (∀ k, t.queue k = (s.scanned q pre post k).filter (fun x => !x.isFor a))
          ∧ t.lookup a = some { r with
              inFlight := true, image := if r.isPending then .pending .inFlight else r.image }
          ∧ OtherRecordsSame a s t
          ∧ (q = .urgent → t.refresh = s.refresh) ∧ (q = .normal → RefreshPassed s t)
          ∧ (s.contexts ≠ [] → t.arbiter = s.arbiter))
  ∧ ∀ (s : State) (q : QueueId) (pre post : List Entry) (e : Entry) (g : Group) (tf : Tariff) (k : Coupler),
      s.weighs → s.chooses q pre e post → e.work = .group g → s.groups[g].tariff = some tf → GroupOn (s.members g) k →
      Completes .slotBoundary s fun t =>
        LaunchedOnLine
            { job := .group g tf s.groups[g].repeats, source := if q = .urgent then .urgent else .normal, coupler := k
              route := [], seq := s.lineSeq, stage := .outbound, remaining := 1 + s.groups[g].repeats.val
              priority := e.priority, orphaned := false } (groupFrame s.lineSeq g tf 0) s t
          ∧ (∀ j, t.queue j = s.scanned q pre post j)
          ∧ (q = .urgent → t.refresh = s.refresh) ∧ (q = .normal → RefreshPassed s t)
          ∧ (s.contexts ≠ [] → t.arbiter = s.arbiter)
          ∧ ∀ (a : Addr) (r : Record), s.lookup a = some r →
              (r.eligible g = true → r.desired = some tf → r.image ≠ .pending .ownEntry →
                ((r.image = .pending .refresh ∨ ∃ h, r.image = .pending (.group h)) →
                  t.lookup a = some { r with mark := some s.lineSeq, image := .pending (.group g) })
                ∧ (r.image ≠ .pending .refresh → (∀ h, r.image ≠ .pending (.group h)) →
                  t.lookup a = some { r with mark := some s.lineSeq }))
              ∧ (r.eligible g = false ∨ r.desired ≠ some tf ∨ r.image = .pending .ownEntry → t.lookup a = some r)

/-- At most one launch is made at a boundary: the line sequence, which each launch advances by one, moves by at most
one. With nothing in flight and no priority above LINE_MASK nothing launches, and what waits keeps waiting. Where no
entry passes R96 and refresh launches nothing, nothing launches, only GROUP entries without members go, and an empty
refresh, one that is offered with no IMMEDIATE or DEFERRED record out of flight, lowers B by one and keeps P. Nothing
launches beside two transactions, nor beside one that is a scrub, BRIDGED or a group frame, nor with PIPELINE off or a
staged value waiting; behind a group frame the queues and refresh are not reached. An end left to the boundary is taken
first (that rows of their own take the ends, and SLOT_BOUNDARY those that are left, is the model's choice, log entries
4 and 5). Where no urgent entry passes, a refresh that is offered launches when its target's coupler is free and
compatible: the target is the first IMMEDIATE or DEFERRED record out of flight from slot P upward, wrapping to 0, and
it is sent a POLL without a desired tariff, else a SET or a scrub by REFRESH_KIND, on the route of R114, a scrub with
its reservation. (The bits of a frame that no layout names are log entry 39, the order of its group list log entry 42.)
-/
def Obligations.LaunchesAreBounded : Prop :=
  (∀ s : State, s.mains.boundaryDue = true →
    (Completes .slotBoundary s fun t => t.lineSeq = s.lineSeq ∨ t.lineSeq = s.lineSeq + 1)
    ∧ (s.contexts = [] → (∀ e ∈ s.urgent, e.priority ≤ s.arbiter.lineMask) →
        (∀ e ∈ s.normal, e.priority ≤ s.arbiter.lineMask) → s.refresh.priority ≤ s.arbiter.lineMask →
      Completes .slotBoundary s fun t =>
        t.contexts = [] ∧ t.urgent = s.urgent ∧ t.normal = s.normal ∧ t.lineSeq = s.lineSeq ∧ t.transmitter = none
          ∧ t.table = s.table ∧ t.refresh = s.refresh ∧ t.mains.boundaryDue = false))
  ∧ (∀ s : State, s.weighs → (∀ e ∈ s.urgent ++ s.normal, ¬s.passes e) → s.refreshWaits ∨ s.refreshEmpty →
      Completes .slotBoundary s fun t =>
        t.contexts = s.contexts.map Context.advanced ∧ t.lineSeq = s.lineSeq ∧ t.transmitter = none ∧ t.table = s.table
          ∧ t.urgent = s.kept s.urgent ∧ t.normal = s.kept s.normal ∧ RefreshPassed s t ∧ t.groups = s.groups
          ∧ (s.contexts ≠ [] → t.arbiter = s.arbiter) ∧ t.mains.boundaryDue = false)
  ∧ (∀ s : State, s.mains.boundaryDue = true → (∀ c ∈ s.contexts, c.remaining ≠ 1) →
      (2 ≤ s.contexts.length ∨ ∃ x ∈ s.contexts,
        x.job.isScrub = true ∨ x.coupler = .bridged ∨ x.job.group?.isSome = true ∨ s.arbiter.pipeline.active = false
          ∨ s.arbiter.slotHc.staged ≠ none ∨ s.arbiter.pipeline.staged ≠ none ∨ s.arbiter.guard.staged ≠ none) →
      Completes .slotBoundary s fun t =>
        t.contexts.map (fun c => (c.job, c.seq)) = s.contexts.map (fun c => (c.job, c.seq)) ∧ t.lineSeq = s.lineSeq
          ∧ t.table = s.table
          ∧ ((∃ x ∈ s.contexts, x.job.group?.isSome = true) → (∀ c ∈ s.contexts, c.job.isScrub = false) →
              t.urgent = s.urgent ∧ t.normal = s.normal ∧ t.refresh = s.refresh))
  ∧ (∀ (s t : State) (i : Instr), i = .transactionEnd ∨ i = .scrubDecision ∨ i = .groupFrameEnd →
      exec i s = .next t → exec .slotBoundary s = exec .slotBoundary t)
  ∧ ∀ (s : State) (r : Record) (job : Job) (bytes : List Byte), s.weighs → (∀ e ∈ s.urgent, ¬s.passes e) → s.offers →
      s.tableWf → s.isTarget r → s.lineTakes (s.scrubs r) r.coupler →
      let route :=
        if r.reach = .reachable ∧ s.attempts ≤ r.failures then r.alternate.getD r.primary else r.primary
      let list := if r.pinned then [] else r.intended
      let seq := s.lineSeq
      ((r.desired = none ∧ job = .poll r.addr r.revision ∧ bytes = pollFrame seq r.addr route)
        ∨ (∃ d, r.desired = some d ∧ s.refresh.kind = .reassert ∧ job = .set r.addr r.revision d list
            ∧ bytes = setFrame seq r.addr route d list)
        ∨ (∃ d, r.desired = some d ∧ s.refresh.kind = .scrub ∧ job = .scrub r.addr r.revision none
            ∧ bytes = pollFrame seq r.addr route)) →
      Completes .slotBoundary s fun t =>
        LaunchedOnLine
            { job := job, source := .refresh, coupler := r.coupler, route := route, seq := seq, stage := .outbound
              remaining := 2 + 2 * route.length, priority := s.refresh.priority, orphaned := false } bytes s t
          ∧ t.refresh = { s.refresh with inFlight := some r.slot }
          ∧ t.urgent = (s.kept s.urgent).filter (fun x => !x.isFor r.addr)
          ∧ t.normal = s.normal.filter (fun x => !x.isFor r.addr)
          ∧ t.lookup r.addr = some { r with
              inFlight := true, image := if r.isPending then .pending .inFlight else r.image }
          ∧ OtherRecordsSame r.addr s t
          ∧ t.arbiter.reservation =
              (if job.isScrub then some (s.boundary + BitVec.ofNat 32 (2 + 2 * route.length), seq)
               else s.arbiter.reservation)
          ∧ (s.contexts ≠ [] → t.arbiter = s.arbiter)

/-! ## The line -/

/-- In a listening slot a path that has heard no good frame takes energy, a frame that answers a listening transaction,
or one that answers none, which is STALE; outside a listening slot nothing is heard. (That STALE rises once, as the
frame is taken, with two transactions listening, and that a frame with the sequence and the address of one is never
STALE, is read from the rules, log entry 8.) -/
def Obligations.ReceiverTakesFrame : Prop :=
  ∀ (p : Phase) (bytes : List Byte) (q : Quality) (s : State),
    (s.listeners = [] → exec (.lineFrameReceived p bytes q) s = .next s)
    ∧ (s.listeners ≠ [] → (s.receivers.path p = .quiet ∨ s.receivers.path p = .energy) →
        (readLine bytes = .bad →
          exec (.lineFrameReceived p bytes q) s = .next { s with receivers := s.receivers.setPath p .energy })
        ∧ (∀ f, readLine bytes = .ack f → answersOne f s.listeners = true →
          exec (.lineFrameReceived p bytes q) s = .next { s with receivers := s.receivers.setPath p (.ack f q) })
        ∧ (∀ f, readLine bytes = .ack f → answersOne f s.listeners = false →
          exec (.lineFrameReceived p bytes q) s
            = .next { s with
                receivers := s.receivers.setPath p (.ack f q)
                counters := { s.counters with stale := min (s.counters.stale + 1) 65535 } })
        ∧ (readLine bytes = .other →
          exec (.lineFrameReceived p bytes q) s
            = .next { s with
                receivers := s.receivers.setPath p .other
                counters := { s.counters with stale := min (s.counters.stale + 1) 65535 } }))
    ∧ (s.listeners ≠ [] → (s.receivers.path p = .other ∨ ∃ f k, s.receivers.path p = .ack f k) →
        exec (.lineFrameReceived p bytes q) s = .next s)

/-- What an endpoint answers is read back by a receive path, whatever its state. -/
def Obligations.AckFrameReadsBack : Prop := ∀ f : AckFrame, readLine f.bytes = .ack f

/-- The outcome of a listening slot: an ACK on any path counts before everything, then AUTH_FAIL, then GARBLED; all
paths quiet give SILENT. Of several ACKs the one heard at the highest quality counts, a tie going to the transaction's
own coupler if it is among those tied, else in the order A, B, C. For a transaction a path gives ACK where it heard an
ACK frame with its sequence, its target's address and the record's check value, AUTH_FAIL where the check value is
another; any other good frame, an ACK of the other transaction among them, counts as SILENT, and energy without a good
frame is GARBLED. (That the address is compared in its two bytes whole is the model's choice, log entry 9.) -/
def Obligations.BestResultCounts : Prop :=
  (∀ (own : Coupler) (a b d : Heard),
    let paths := [(Phase.a, a), (Phase.b, b), (Phase.c, d)]
    ((∀ f q, a ≠ .ack f q) → (∀ f q, b ≠ .ack f q) → (∀ f q, d ≠ .ack f q) →
      (a = .authFail ∨ b = .authFail ∨ d = .authFail → combine own paths = .authFail)
      ∧ (a ≠ .authFail → b ≠ .authFail → d ≠ .authFail →
          (a = .garbled ∨ b = .garbled ∨ d = .garbled → combine own paths = .garbled)
          ∧ (a = .silent → b = .silent → d = .silent → combine own paths = .silent)))
    ∧ ((∃ f q, a = .ack f q ∨ b = .ack f q ∨ d = .ack f q) →
        ∃ f p q, combine own paths = .ack f p q ∧ (p, Heard.ack f q) ∈ paths
          ∧ ∀ p' f' q', (p', Heard.ack f' q') ∈ paths → q'.toNat ≤ q.toNat)
    ∧ ∀ f p q, combine own paths = .ack f p q →
        let tied := fun x : Phase => ∃ f' q', (x, Heard.ack f' q') ∈ paths ∧ q'.toNat = q.toNat
        (∀ x, own = .single x → tied x → p = x)
          ∧ ((∀ x, own = .single x → ¬tied x) → ∀ x, tied x → Phase.code p ≤ Phase.code x))
  ∧ (∀ (seq : Seq) (target : Addr) (check : CheckValue),
      classify seq target check .quiet = .silent ∧ classify seq target check .energy = .garbled
        ∧ classify seq target check .other = .silent
        ∧ ∀ (f : AckFrame) (q : Quality),
            let mine := f.seq = seq ∧ f.addr = target.setWidth 16
            (mine → f.check = check → classify seq target check (.ack f q) = .ack f q)
              ∧ (mine → f.check ≠ check → classify seq target check (.ack f q) = .authFail)
              ∧ (¬mine → classify seq target check (.ack f q) = .silent))
  ∧ ∀ (s : State) (c : Context) (a : Addr) (r : Record), s.lookup a = some r →
      let heard := fun p : Phase => classify c.seq a r.check (s.receivers.path p)
      s.lineResult c a = combine c.coupler [(Phase.a, heard .a), (Phase.b, heard .b), (Phase.c, heard .c)]

/-- An ACK of a SET whose record's revision has not moved and that reports the desired tariff confirms the record and
records what R55 names; the transaction is over. An ACK of any kind records what R55 names, teaches a coupler that is
not FIXED the one heard, and makes a re-decode that fell due. Then a SET, a scrub in its extension and a POLL of a
record with a desired tariff confirm a match; on a mismatch they place a delivery for a record with enforce set (a POLL
also for one that is PENDING), else report MISMATCH; where the revision has moved a delivery is placed unless the
record is PENDING with another cover than IN_FLIGHT. A PASS_SET and a POLL without a desired tariff leave the image. An
orphaned transaction places a delivery only where a tariff was stated after the FORGET. -/
def Obligations.MatchingSetAckConfirms : Prop :=
  (∀ (s : State) (c : Context) (a : Addr) (rev : BitVec 16) (d : Tariff) (l : List Group) (r : Record) (f : AckFrame)
    (heard : Phase) (q : Quality),
    s.nextEnd = some c → c.job = .set a rev d l → c.orphaned = false → s.lookup a = some r →
    s.lineResult c a = .ack f heard q → r.revision = rev → r.desired = some f.held →
    Completes .transactionEnd s fun t =>
      t.contexts = s.contexts.eraseP (fun x => x.remaining == 1)
        ∧ (∃ r', t.lookup a = some r' ∧ r'.image = .confirmed ∧ r'.desired = r.desired ∧ r'.held = some f.held
            ∧ r'.confirmed = some l ∧ r'.failures = 0 ∧ r'.reach = .reachable ∧ r'.mismatch = false
            ∧ r'.restored = f.restored ∧ r'.relayFault = f.relayFault ∧ r'.localOverride = f.localOverride
            ∧ r'.holdExpired = f.holdExpired ∧ r'.rxQuality = some q ∧ r'.endpointQuality = some f.quality
            ∧ r'.inFlight = false ∧ r'.redecodeDue = false)
        ∧ OtherRecordsSame a s t ∧ t.urgent = s.urgent ∧ t.normal = s.normal ∧ t.lineSeq = s.lineSeq)
  ∧ ∀ (s : State) (c : Context) (a : Addr) (r : Record) (f : AckFrame) (heard : Phase) (q : Quality) (rev : BitVec 16),
      s.nextEnd = some c → c.job.target? = some a → c.job.inPollPart = false → s.lookup a = some r →
      s.lineResult c a = .ack f heard q →
      let x := s.afterAck r f heard q (c.job.sentList <|> r.confirmed)
      let ends := fun p : State → Prop =>
        Completes .transactionEnd s fun t => TransactionOver c s t ∧ OtherRecordsSame a s t ∧ p t
      let left := fun (y : Record) (t : State) => t.lookup a = some y ∧ NothingPlaced s t
      let repaired := fun t : State => Delivered a c.priority .repair x s t
      let waitsElsewhere := ∃ cover, r.image = .pending cover ∧ cover ≠ .inFlight
      let set := (∃ d l, c.job = .set a rev d l) ∨ ∃ e, c.job = .scrub a rev (some e)
      let poll := c.job = .poll a rev ∧ r.desired.isSome = true
      (c.orphaned = false → set ∨ poll →
        (r.revision ≠ rev → (waitsElsewhere → ends (left x)) ∧ (¬waitsElsewhere → ends repaired))
        ∧ (r.revision = rev → r.desired = some f.held → ends (left { x with image := .confirmed, mismatch := false }))
        ∧ (r.revision = rev → r.desired ≠ some f.held →
            (r.enforce = true ∨ (poll ∧ r.isPending = true) → ends repaired)
            ∧ (r.enforce = false → set ∨ r.isPending = false → ends (left { x with image := .unknown, mismatch := true }))))
      ∧ (c.orphaned = false →
          (c.job = .poll a rev ∧ r.desired = none) ∨ (∃ d l, c.job = .passSet a d l) → ends (left x))
      ∧ (c.orphaned = true →
          (r.image = .pending .inFlight → ends repaired) ∧ (r.image ≠ .pending .inFlight → ends (left x)))

/-- A SILENT outcome of a SET launched from the normal queue for a REACHABLE record: below the loss limit the attempt
is retried from the tail of that queue, on the route the new failure count chooses; at the limit the record is LOST,
its reported flags are cleared and no entry is made. Any failing outcome of a transaction of any kind is counted by its
own counter; then an orphaned transaction places a delivery only where a tariff was stated after the FORGET; a refresh,
and a record that is LOST, makes no entry; and any other is retried as an entry of its kind at the tail of the queue it
was launched from, or STRANDED when that is full. A record PENDING with cover IN_FLIGHT takes cover OWN_ENTRY with the
retry, else REFRESH. -/
def Obligations.SilentSetIsRetriedOrLost : Prop :=
  (∀ (s : State) (c : Context) (a : Addr) (rev : BitVec 16) (d : Tariff) (l : List Group) (r : Record),
    s.nextEnd = some c → c.job = .set a rev d l → c.orphaned = false → c.source = .normal →
    s.lookup a = some r → s.lineResult c a = .silent → r.reach = .reachable →
    let count := min (r.failures + 1) 15
    let limit := if r.alternate.isSome then 2 * s.attempts else s.attempts
    let route := if s.attempts ≤ count then r.alternate.getD r.primary else r.primary
    (count < limit → s.normal.length < 128 →
      Completes .transactionEnd s fun t =>
        t.normal = s.normal ++ [{ work := .deliver a, priority := c.priority, origin := .retry route }]
          ∧ t.urgent = s.urgent ∧ t.counters = { s.counters with silent := min (s.counters.silent + 1) 65535 }
          ∧ (∃ r', t.lookup a = some r' ∧ r'.failures = count ∧ r'.reach = .reachable ∧ r'.inFlight = false
              ∧ (r.image = .pending .inFlight → r'.image = .pending .ownEntry)
              ∧ (r.image ≠ .pending .inFlight → r'.image = r.image)
              ∧ r'.held = r.held ∧ r'.confirmed = r.confirmed ∧ ∀ k : Cond, r'.flag k = r.flag k)
          ∧ OtherRecordsSame a s t ∧ t.contexts = s.contexts.eraseP (fun x => x.remaining == 1))
    ∧ (limit ≤ count →
      Completes .transactionEnd s fun t =>
        t.normal = s.normal ∧ t.urgent = s.urgent
          ∧ (∃ r', t.lookup a = some r' ∧ r'.failures = count ∧ r'.reach = .lost ∧ r'.inFlight = false
              ∧ r'.restored = false ∧ r'.relayFault = false ∧ r'.localOverride = false ∧ r'.holdExpired = false
              ∧ r'.mismatch = r.mismatch ∧ (r.image = .pending .inFlight → r'.image = .pending .refresh)
              ∧ (r.image ≠ .pending .inFlight → r'.image = r.image))
          ∧ OtherRecordsSame a s t ∧ t.contexts = s.contexts.eraseP (fun x => x.remaining == 1)))
  ∧ ∀ (s : State) (c : Context) (a : Addr) (r : Record),
      s.nextEnd = some c → c.job.target? = some a → s.lookup a = some r →
      s.lineResult c a = .silent ∨ s.lineResult c a = .garbled ∨ s.lineResult c a = .authFail →
      let x := s.afterFailure r
      let landed := fun cover : Cover =>
        some { x with image := if r.image = .pending .inFlight then .pending cover else r.image }
      let ends := fun p : State → Prop =>
        Completes (if c.job.inPollPart then .scrubDecision else .transactionEnd) s fun t =>
          TransactionOver c s t ∧ OtherRecordsSame a s t ∧ p t
            ∧ t.counters.silent =
                (if s.lineResult c a = .silent then min (s.counters.silent + 1) 65535 else s.counters.silent)
            ∧ t.counters.garbled =
                (if s.lineResult c a = .garbled then min (s.counters.garbled + 1) 65535 else s.counters.garbled)
            ∧ t.counters.authFail =
                (if s.lineResult c a = .authFail then min (s.counters.authFail + 1) 65535 else s.counters.authFail)
      (c.orphaned = true →
        (r.image = .pending .inFlight → ends fun t => Delivered a c.priority .repair x s t)
        ∧ (r.image ≠ .pending .inFlight → ends fun t => t.lookup a = some x ∧ NothingPlaced s t))
      ∧ (c.orphaned = false → c.source = .refresh ∨ x.reach = .lost →
          ends fun t => t.lookup a = landed .refresh ∧ NothingPlaced s t)
      ∧ ∀ (k : QueueId) (w : Work), c.orphaned = false → c.source = k.source → x.reach = .reachable →
          ((∃ rev d l, c.job = .set a rev d l) ∧ w = .deliver a)
            ∨ ((∃ rev, c.job = .poll a rev) ∧ w = .poll a) ∨ (∃ d l, c.job = .passSet a d l ∧ w = .passDeliver a d) →
          let route := if s.attempts ≤ x.failures then r.alternate.getD r.primary else r.primary
          (s.hasRoom k = true → ends fun t =>
            t.lookup a = landed .ownEntry ∧ Enqueued k { work := w, priority := c.priority, origin := .retry route } s t
              ∧ t.counters.queueFull = s.counters.queueFull ∧ t.counters.stranded = s.counters.stranded)
          ∧ (s.hasRoom k = false → ends fun t =>
            t.lookup a = landed .refresh ∧ t.urgent = s.urgent ∧ t.normal = s.normal
              ∧ t.counters.queueFull = s.counters.queueFull
              ∧ t.counters.stranded = min (s.counters.stranded + 1) 65535)

/-- The decision of a scrub on an ACK whose record's revision has not moved: a matching one ends it CONFIRMED; a
mismatch with enforce set continues it into its extension, the record PENDING with cover IN_FLIGHT; a mismatch with
enforce clear on a record that is not PENDING ends it UNKNOWN with MISMATCH. With a record's revision moved, or a
mismatch of a PENDING one, it is continued too; an orphaned one ends, and places a delivery only where a tariff was
stated after the FORGET. A scrub that ends is over like any transaction, its refresh accounted. At the boundary its
reservation names the extension begins: the SET is sent and the reservation is cleared. (The bits of a frame that no
layout names are log entry 39, the order of its group list log entry 42.) -/
def Obligations.ScrubIsDecided : Prop :=
  (∀ (s : State) (c : Context) (a : Addr) (rev : BitVec 16) (r : Record) (f : AckFrame) (heard : Phase) (q : Quality)
    (d : Tariff),
    s.nextEnd = some c → c.job = .scrub a rev none → c.orphaned = false → s.contexts = [c] → s.lookup a = some r →
    s.lineResult c a = .ack f heard q → r.revision = rev → r.desired = some d →
    (f.held = d →
      Completes .scrubDecision s fun t =>
        t.contexts = [] ∧ t.arbiter.reservation = none
          ∧ ∃ r', t.lookup a = some r' ∧ r'.image = .confirmed ∧ r'.mismatch = false ∧ r'.inFlight = false
              ∧ r'.held = some f.held ∧ r'.confirmed = r.confirmed)
    ∧ (f.held ≠ d → r.enforce = true →
      Completes .scrubDecision s fun t =>
        t.contexts =
            [{ c with
                job := .scrub a rev (some { tariff := d, list := if r.pinned then [] else r.intended })
                stage := .extension
                remaining := 2 + 2 * c.route.length }]
          ∧ t.arbiter = s.arbiter
          ∧ ∃ r', t.lookup a = some r' ∧ r'.image = .pending .inFlight ∧ r'.mark = none ∧ r'.inFlight = r.inFlight
              ∧ r'.mismatch = r.mismatch ∧ r'.held = some f.held ∧ r'.confirmed = r.confirmed)
    ∧ (f.held ≠ d → r.enforce = false → r.isPending = false →
      Completes .scrubDecision s fun t =>
        t.contexts = [] ∧ t.arbiter.reservation = none
          ∧ ∃ r', t.lookup a = some r' ∧ r'.image = .unknown ∧ r'.mismatch = true ∧ r'.inFlight = false
              ∧ r'.held = some f.held))
  ∧ (∀ (s : State) (c : Context) (a : Addr) (rev : BitVec 16) (r : Record) (f : AckFrame) (heard : Phase) (q : Quality),
      s.nextEnd = some c → c.job = .scrub a rev none → s.lookup a = some r → s.lineResult c a = .ack f heard q →
      let x := s.afterAck r f heard q r.confirmed
      let ends := fun p : State → Prop =>
        Completes .scrubDecision s fun t => TransactionOver c s t ∧ OtherRecordsSame a s t ∧ p t
      let left := fun (y : Record) (t : State) => t.lookup a = some y ∧ NothingPlaced s t
      (c.orphaned = false → r.revision = rev → r.desired = some f.held →
        ends (left { x with image := .confirmed, mismatch := false }))
      ∧ (c.orphaned = false → r.revision = rev → r.desired ≠ some f.held → r.isPending = false → r.enforce = false →
          ends (left { x with image := .unknown, mismatch := true }))
      ∧ (c.orphaned = true →
          (r.image = .pending .inFlight → ends fun t => Delivered a c.priority .repair x s t)
          ∧ (r.image ≠ .pending .inFlight → ends (left x)))
      ∧ ∀ d, c.orphaned = false → r.desired = some d →
          r.revision ≠ rev ∨ (d ≠ f.held ∧ (r.isPending = true ∨ r.enforce = true)) →
          let extended :=
            { c with
              job := .scrub a r.revision (some { tariff := d, list := if r.pinned then [] else r.intended })
              stage := .extension
              remaining := 2 + 2 * c.route.length }
          Completes .scrubDecision s fun t =>
            t.contexts = s.contexts.map (fun y => if y = c then extended else y)
              ∧ t.arbiter = s.arbiter ∧ t.refresh = s.refresh ∧ t.lineSeq = s.lineSeq
              ∧ OtherRecordsSame a s t
              ∧ left { s.afterAck { r with redecodeDue := false } f heard q r.confirmed with
                  image := .pending .inFlight, mark := none, inFlight := r.inFlight, redecodeDue := r.redecodeDue } t)
  ∧ ∀ (s : State) (c : Context) (b : Grid) (a : Addr) (rev : BitVec 16) (e : Extension),
      s.mains.boundaryDue = true → s.mains.grid = some b → s.contexts = [c] → c.job = .scrub a rev (some e) →
      c.remaining ≠ 1 → s.arbiter.reservation = some (s.boundary, c.seq) →
      exec .slotBoundary s
        = .next { s with
            mains := { s.mains with boundaryDue := false, grid := some { b with length := s.arbiter.slotHc.active } }
            receivers := Receivers.quiet
            transmitter := some { coupler := c.coupler, bytes := setFrame c.seq a c.route e.tariff e.list }
            arbiter := { s.arbiter with reservation := none } }

/-- The end of a group frame: a record that stores the group, wants the frame's tariff and holds its mark is SHARED, or
stays CONFIRMED; one that wants the tariff without the mark keeps its image; a PASS record and one in flight are passed
over; and no record keeps the frame's mark. A record that stores the group and wants another tariff keeps an own
entry's cover or that of a group with an entry queued, takes an own POLL entry as its cover (that it does is read from
the rules, log entry 16), and else has a delivery placed; so has a record that waited for this frame without storing
the group, where no further frame is queued; and a record that believed an image without a confirmed list loses it when
it wants another tariff. The deliveries are placed at the frame's priority with origin REPAIR while their queue has
room. -/
def Obligations.GroupFrameEndReachesMembers : Prop :=
  (∀ (s : State) (c : Context) (g : Group) (tf : Tariff) (n : Fin 4),
    s.nextEnd = some c → c.job = .group g tf n →
    Completes .groupFrameEnd s fun t =>
      t.contexts = s.contexts.eraseP (fun x => x.remaining == 1)
        ∧ (∀ r ∈ t.table, r.mark ≠ some c.seq)
        ∧ t.groups = s.groups ∧ t.fifo = s.fifo ∧ t.counts = s.counts
        ∧ ∀ (a : Addr) (r : Record), s.lookup a = some r →
            (r.cls ≠ .pass → r.inFlight = false → r.stores g = true → r.desired = some tf → r.mark = some c.seq →
              ∃ r', t.lookup a = some r' ∧ r'.held = some tf ∧ r'.mark = none
                ∧ r'.image = (if r.image = .confirmed then .confirmed else .shared))
            ∧ (r.cls ≠ .pass → r.inFlight = false → r.stores g = true → r.desired = some tf →
                r.mark ≠ some c.seq →
              ∃ r', t.lookup a = some r' ∧ r'.held = some tf ∧ r'.image = r.image ∧ r'.mark = r.mark)
            ∧ (r.cls = .pass ∨ r.inFlight = true →
              ∃ r', t.lookup a = some r' ∧ r'.held = r.held ∧ r'.image = r.image)
            ∧ (r.cls ≠ .pass → r.inFlight = false → r.confirmed = none → r.image.believed = true →
                r.desired ≠ some tf →
              ∃ r', t.lookup a = some r' ∧ r'.held = r.held ∧ r'.image = .unknown))
  ∧ ∀ (s : State) (c : Context) (g : Group) (tf : Tariff) (n : Fin 4),
      s.nextEnd = some c → c.job = .group g tf n → c.source ≠ .refresh → s.addrs.Nodup →
      Completes .groupFrameEnd s fun t =>
        TransactionOver c s t
          ∧ (∀ k, s.queue k <+: t.queue k) ∧ (∀ k, k ≠ queueFor c.priority → t.queue k = s.queue k)
          ∧ (∀ a : Addr, s.lookup a = none → t.lookup a = none)
          ∧ ∀ (a : Addr) (r : Record), s.lookup a = some r →
              let unmarked := fun x : Record => some { x with mark := if r.mark = some c.seq then none else r.mark }
              let reached := { r with held := some tf }
              let placed := fun x : Record =>
                (r.cls = .immediate → r.reach = .reachable →
                  (t.lookup a = unmarked { x with image := .pending .ownEntry }
                      ∧ { work := .deliver a, priority := c.priority, origin := .repair } ∈ t.queue (queueFor c.priority))
                    ∨ (t.lookup a = unmarked { x with image := .pending .refresh }
                      ∧ t.hasRoom (queueFor c.priority) = false))
                ∧ (r.cls = .deferred ∨ r.reach = .lost → t.lookup a = unmarked { x with image := .pending .refresh })
              let stands := r.image = .pending .ownEntry ∨ ∃ h, r.image = .pending (.group h) ∧ s.groupEntry h ≠ none
              (r.cls = .pass ∨ r.inFlight = true → t.lookup a = unmarked r)
              ∧ (r.cls ≠ .pass → r.inFlight = false → r.stores g = true →
                  (r.desired = none ∨ (r.desired = some tf ∧ r.mark ≠ some c.seq) → t.lookup a = unmarked reached)
                  ∧ (r.desired = some tf → r.mark = some c.seq →
                      t.lookup a = unmarked { reached with
                        image := if r.image = .confirmed then .confirmed else .shared })
                  ∧ (∀ d, r.desired = some d → d ≠ tf →
                      (stands → t.lookup a = unmarked reached)
                      ∧ (¬stands → s.ownEntry a ≠ none → t.lookup a = unmarked { reached with image := .pending .ownEntry })
                      ∧ (¬stands → s.ownEntry a = none → placed reached)))
              ∧ (r.cls ≠ .pass → r.inFlight = false → r.stores g = false →
                  let lost := r.confirmed = none ∧ r.image.believed = true ∧ r.desired ≠ some tf
                  let waited := r.image = .pending (.group g) ∧ s.groupEntry g = none
                  (lost → t.lookup a = unmarked { r with image := .unknown })
                  ∧ (waited → placed r) ∧ (¬lost → ¬waited → t.lookup a = unmarked r))

/-! ## Time -/

/-- One second: uptime rises by 1 modulo 2^32, a RUNNING clock advances with its carries and owes a due check, and a
wrap of the clock owes none. (That what the last second left due is taken first is the model's choice, log entry 3:
here nothing is.) -/
def Obligations.SecondAdvancesUptimeAndClock : Prop :=
  ∀ s : State, s.refresh.timer ≠ s.timebase.uptime → s.timebase.checkDue = false →
    (∀ r ∈ s.table, ∀ o, r.override = some o → o.endsAt ≠ s.timebase.uptime) →
    (s.timebase.clock = none →
      exec .secondEvent s = .next { s with timebase := { s.timebase with uptime := s.timebase.uptime + 1 } })
    ∧ (∀ c, s.timebase.clock = some c → c.second < 86399 →
      exec .secondEvent s = .next { s with timebase :=
        { uptime := s.timebase.uptime + 1, clock := some { c with second := c.second + 1 }, checkDue := true } })
    ∧ (∀ c, s.timebase.clock = some c → c.second = 86399 → c.day < 65535 →
      exec .secondEvent s = .next { s with timebase :=
        { uptime := s.timebase.uptime + 1, clock := some { day := c.day + 1, second := 0 }, checkDue := true } })
    ∧ (∀ c, s.timebase.clock = some c → c.second = 86399 → c.day = 65535 →
      exec .secondEvent s = .next { s with timebase :=
        { uptime := s.timebase.uptime + 1, clock := some { day := 0, second := 0 }, checkDue := false } })

/-- An expiry of the interval timer raises B in AUTO and M in EXTERNAL, no further than 1023, evaluates REFRESH_BACKLOG
and launches nothing; the next expiry falls REFRESH_INTERVAL seconds later. (The row acts when uptime stands at the
second the timer holds, log entry 1.) -/
def Obligations.ExpiryRaisesBacklog : Prop :=
  ∀ s : State, s.refresh.timer = s.timebase.uptime →
    Completes .refreshIntervalExpiry s fun t =>
      t.refresh.timer = s.timebase.uptime + BitVec.ofNat 32 s.refresh.interval
        ∧ (s.refresh.mode = .auto →
            t.refresh.backlog = min (s.refresh.backlog + 1) 1023 ∧ t.refresh.missed = s.refresh.missed)
        ∧ (s.refresh.mode = .external →
            t.refresh.missed = min (s.refresh.missed + 1) 1023 ∧ t.refresh.backlog = s.refresh.backlog)
        ∧ t.refresh.backlogLevel = t.refresh.overLimit
        ∧ t.contexts = s.contexts ∧ t.urgent = s.urgent ∧ t.normal = s.normal ∧ t.table = s.table
        ∧ t.lineSeq = s.lineSeq ∧ t.refresh.pointer = s.refresh.pointer

/-- The override ends that uptime has reached: the record returns to its saved tariff without an override; a record
whose end is another second, or that has no override, is left as it is. The ends are taken in slot order, each leaving
what END_OVERRIDE of the endpoint leaves. -/
def Obligations.DueOverridesEnd : Prop :=
  (∀ s : State,
    let due := s.table.filter fun r => r.override.any fun o => o.endsAt == s.timebase.uptime
    exec .overrideEndDue s = .next ((due.map (·.addr)).foldl State.afterEndOverride s))
  ∧ ∀ s : State,
    Completes .overrideEndDue s fun t =>
      SameElsewhere s t
        ∧ (∀ (a : Addr) (r : Record) (o : Override), s.lookup a = some r → s.addrs.Nodup → r.override = some o →
            o.endsAt = s.timebase.uptime →
            ∃ r', t.lookup a = some r' ∧ r'.override = none ∧ r'.desired = some o.saved
              ∧ (r.desired = some o.saved → r' = { r with override := none })
              ∧ (r.desired ≠ some o.saved → r'.revision = r.revision + 1 ∧ r'.mark = none ∧ r'.isPending = true))
        ∧ ∀ (a : Addr) (r : Record), s.lookup a = some r → s.addrs.Nodup →
            (∀ o, r.override = some o → o.endsAt ≠ s.timebase.uptime) → t.lookup a = some r

/-- The due check owed after the clock's advance, for a plan of one entry that is due: the entry fires; a ONCE entry is
removed, and a DAILY one stands again at the first day that puts its second after the clock. In a plan of any length
every due entry fires once, in the plan's order, and no other; none that is due remains. An entry fires as the request
it stands for, at its priority, with origin PLAN for every entry it causes (for END_OVERRIDE the priority and the
origin of the override's end, log entry 14); of a range, each unit in turn is fired upon as an endpoint, passing over
what SET_RANGE skips; and a firing with nothing to act on is counted in PLAN_MISS. -/
def Obligations.DueEntryFires : Prop :=
  (∀ (s : State) (e : PlanEntry) (now : Clock), s.timebase.checkDue = true → s.timebase.clock = some now →
    s.plan = [e] → e.due.day * 86400 + e.due.second ≤ now.day * 86400 + now.second →
    e.due.second < 86400 → now.second < 86400 →
    let day := if now.second < e.due.second then now.day else now.day + 1
    let fired := fireEntry e { s with timebase := { s.timebase with checkDue := false } }
    (e.daily = false → exec .planEntryDue s = .next { fired with plan := [] })
    ∧ (e.daily = true → day ≤ 65535 →
        exec .planEntryDue s = .next { fired with plan := [{ e with due := { e.due with day := day } }] }
          ∧ now.day * 86400 + now.second < day * 86400 + e.due.second)
    ∧ (e.daily = true → 65535 < day → exec .planEntryDue s = .next { fired with plan := [] }))
  ∧ (∀ (s : State) (now : Clock), s.timebase.checkDue = true → s.timebase.clock = some now → s.planWf →
      now.second < 86400 →
      Completes .planEntryDue s (DueChecked now { s with timebase := { s.timebase with checkDue := false } }))
  ∧ (∀ (s : State) (e : PlanEntry) (i : Instr), e.inRange → e.request? = some i →
      let t := fireEntry e s
      Completes i s fun u =>
        ({ t with urgent := [], normal := [], counters := Counters.zero, link := s.link } : State)
            = { u with urgent := [], normal := [], counters := Counters.zero, link := s.link }
          ∧ ({ t.counters with planMiss := 0 } : Counters) = { u.counters with planMiss := 0 }
          ∧ (∀ k, (t.queue k).map (fun x => (x.work, x.priority)) = (u.queue k).map (fun x => (x.work, x.priority)))
          ∧ (e.action = .endOverride → t.urgent = u.urgent ∧ t.normal = u.normal)
          ∧ (e.action ≠ .endOverride → ∀ k, ∀ x ∈ t.queue k, x.origin = .plan
              ∨ ∃ y ∈ s.queue k, y.origin = x.origin ∧ y.priority = x.priority ∧ y.work.owner = x.work.owner))
  ∧ (∀ (s : State) (e : PlanEntry),
      (e.misses s → (fireEntry e s).counters.planMiss = min (s.counters.planMiss + 1) 65535)
      ∧ (¬e.misses s → (fireEntry e s).counters.planMiss = s.counters.planMiss))
  ∧ ∀ (s : State) (e : PlanEntry) (g : Segment) (start : Byte) (n : Nat), e.target = .range g start n → n ≤ 256 →
      let t := fireEntry e s
      let units := unitsOf g start n
      let taken := units.filter fun a => (s.lookup a).any fun r => !r.pinned && r.cls != .pass
      { t with counters := { t.counters with planMiss := s.counters.planMiss } }
          = taken.foldl (fun u a => fireEntry { e with target := .endpoint a } u) s
      ∧ (∀ (d : Tariff) (m : Nat), e.action = .override d m →
        SameElsewhere s t
          ∧ ∀ (a : Addr) (r : Record), s.lookup a = some r →
              (a ∉ units ∨ s.passesOver a ∨ r.desired = none → t.lookup a = some r)
              ∧ ∀ d₀, a ∈ units → ¬s.passesOver a → r.desired = some d₀ →
                  let saved := match r.override with
                    | some o => o.saved
                    | none => d₀
                  let endsAt := s.timebase.uptime + BitVec.ofNat 32 (60 * m)
                  let started :=
                    { r with override := some { saved := saved, endsAt := endsAt, priority := e.priority } }
                  (d₀ = d → r.image = .confirmed → t.lookup a = some started)
                  ∧ (¬(d₀ = d ∧ r.image = .confirmed) → ∃ cover, t.lookup a = some { started with
                      desired := some d, revision := r.revision + 1, mark := none, image := .pending cover }))
      ∧ (e.action = .endOverride →
        SameElsewhere s t
          ∧ ∀ (a : Addr) (r : Record), s.lookup a = some r →
              (a ∉ units ∨ s.passesOver a ∨ r.override = none → t.lookup a = some r)
              ∧ ∀ o, a ∈ units → ¬s.passesOver a → r.override = some o →
                  (r.desired = some o.saved → t.lookup a = some { r with override := none })
                  ∧ (r.desired ≠ some o.saved → ∃ cover, t.lookup a = some { r with
                      override := none, desired := some o.saved, revision := r.revision + 1, mark := none
                      image := .pending cover }))

/-! ## The host link -/

/-- The framer: a START fills a free buffer or, finding a complete frame there, is dropped with its frame and counted;
a gap abandons a frame, counted only if it was being received; the end of a discarded frame. -/
def Obligations.FramerMoves : Prop :=
  ∀ s : State,
    (s.link.framer = .hunting → s.link.buffer = .free →
      exec .frameStart s = .next { s with link := { s.link with framer := .receiving, buffer := .filling } })
    ∧ (∀ f, s.link.framer = .hunting → s.link.buffer = .holding f →
      exec .frameDiscarded s
        = .next { s with
            link := { s.link with framer := .discarding }
            counters := { s.counters with linkOverrun := min (s.counters.linkOverrun + 1) 65535 } })
    ∧ (s.link.framer = .receiving →
      exec .interByteGap s
        = .next { s with
            link := { s.link with framer := .hunting, buffer := .free }
            counters := { s.counters with linkGap := min (s.counters.linkGap + 1) 65535 } })
    ∧ (s.link.framer = .discarding →
      exec .interByteGap s = .next { s with link := { s.link with framer := .hunting } }
        ∧ exec .discardEnd s = .next { s with link := { s.link with framer := .hunting } })

/-- A complete frame: it waits in the buffer while a reply waits; else it is taken at once and answered, in the order
of R175: a bad LEN or CRC, an unknown KIND, a wrong length, then the request itself. A LEN above 240 is answered like a
bad CRC, and a target form that OVERRIDE and END_OVERRIDE do not have is BAD_VALUE. (That a frame is in hand, so that
the next one waits, exactly while a reply waits is the model's choice, log entry 19.) -/
def Obligations.CompleteFrameIsTaken : Prop :=
  (∀ (s : State) (len kind hi lo : Byte) (payload : List Byte), s.link.framer = .receiving →
    len.toNat ≤ 240 → payload.length = len.toNat →
    let bytes := len :: kind :: (payload ++ [hi, lo])
    let crc := crc16 (len :: kind :: payload)
    let taken := { s with link := { s.link with framer := .hunting, buffer := .free } }
    (s.link.replies ≠ [] →
      exec (.frameComplete bytes) s
        = .next { s with link := { s.link with
            framer := .hunting, buffer := .holding (.frame kind payload (hi ++ lo)) } })
    ∧ (s.link.replies = [] → (hi ++ lo : BitVec 16) ≠ crc →
      exec (.frameComplete bytes) s
        = .next { taken with
            link := { taken.link with replies := [{ kind := 0xFF, payload := [0x15] }] }
            counters := { s.counters with linkCrc := min (s.counters.linkCrc + 1) 65535 } })
    ∧ (s.link.replies = [] → (hi ++ lo : BitVec 16) = crc → isRequestKind kind = false →
      exec (.frameComplete bytes) s
        = .next { taken with link := { taken.link with replies := [{ kind := 0xFE, payload := [0x16, kind] }] } })
    ∧ (s.link.replies = [] → (hi ++ lo : BitVec 16) = crc → isRequestKind kind = true →
      readRequest kind payload = .badLength →
      exec (.frameComplete bytes) s
        = .next { taken with link := { taken.link with replies := [{ kind := kind ||| 0x80, payload := [0x17] }] } })
    ∧ (s.link.replies = [] → (hi ++ lo : BitVec 16) = crc → isRequestKind kind = true →
      ∀ i, readRequest kind payload = .command i → exec (.frameComplete bytes) s = exec i taken))
  ∧ (∀ (s : State) (len : Byte), s.link.framer = .receiving → 240 < len.toNat →
      (s.link.replies ≠ [] →
        exec (.frameComplete [len]) s
          = .next { s with link := { s.link with framer := .hunting, buffer := .holding .badLength } })
      ∧ (s.link.replies = [] →
        exec (.frameComplete [len]) s
          = .next { s with
              link := { s.link with
                framer := .hunting, buffer := .free, replies := [{ kind := 0xFF, payload := [0x15] }] }
              counters := { s.counters with linkCrc := min (s.counters.linkCrc + 1) 65535 } }))
  ∧ ∀ (s : State) (kind form : Byte) (rest : List Byte), s.link.framer = .receiving → s.link.replies = [] →
      (kind = 0x0E ∧ rest.length = 6) ∨ (kind = 0x0F ∧ rest.length = 2) → 2 ≤ form.toNat →
      let body := BitVec.ofNat 8 (rest.length + 1) :: kind :: form :: rest
      exec (.frameComplete (body ++ bytes2 (crc16 body))) s
        = .next { s with link := { s.link with
            framer := .hunting, buffer := .free, replies := [{ kind := kind ||| 0x80, payload := [0x0F] }] } }

/-- A request row and the frame that spells it do the same: what is read from a frame's KIND and payload is carried out
and answered as the row is. The two rows of R175 answer a frame that is no request. -/
def Obligations.FramesAreAnswered : Prop :=
  (∀ (kind : Byte) (payload : List Byte) (i : Instr) (s : State), readRequest kind payload = .command i →
      exec i s = .next ((carryOut i s).reply kind))
  ∧ (∀ s : State,
    exec .frameError s
      = .next { s with
          link := { s.link with replies := s.link.replies ++ [{ kind := 0xFF, payload := [0x15] }] }
          counters := { s.counters with linkCrc := min (s.counters.linkCrc + 1) 65535 } })
  ∧ ∀ (kind : Byte) (s : State),
    exec (.unknownRequest kind) s
      = .next { s with
          link := { s.link with replies := s.link.replies ++ [{ kind := 0xFE, payload := [0x16, kind] }] } }

/-- The order of what is sent: the ready frame, then a reply, whether the buffer is free, filling or holds a frame,
then the oldest notice; a notice leaves the FIFO as it begins. (That several replies may wait is the model's choice,
log entry 18; that a complete frame stays behind them, log entry 19; and that the frame being sent stands until the
transmitter is next free, log entry 20.) -/
def Obligations.TransmitterSendsInOrder : Prop :=
  ∀ s : State,
    (s.link.ready = true →
      exec .linkTransmitterFree s
        = .next { s with link := { s.link with
            ready := false
            sending := some
              { kind := 0x7F, payload := [0x03, 0xC0, Config.siliconRevision, s.link.strap.setWidth 8] } } })
    ∧ (∀ r rs, s.link.ready = false → s.link.replies = r :: rs → (rs ≠ [] ∨ s.link.buffer = .free ∨ s.link.buffer = .filling) →
      exec .linkTransmitterFree s = .next { s with link := { s.link with replies := rs, sending := some r } })
    ∧ (∀ r f, s.link.ready = false → s.link.replies = [r] → s.link.buffer = .holding f →
      exec .linkTransmitterFree s
        = .next (judgeFrame f { s with link := { s.link with replies := [], sending := some r, buffer := .free } }))
    ∧ (∀ n ns, s.link.ready = false → s.link.replies = [] → s.fifo = n :: ns →
      exec .linkTransmitterFree s
        = .next { s with
            fifo := ns
            link := { s.link with
              sending := some { kind := 0x7E, payload := [BitVec.ofNat 8 n.line.val, n.tag] } } })
    ∧ (s.link.ready = false → s.link.replies = [] → s.fifo = [] →
      exec .linkTransmitterFree s = .next { s with link := { s.link with sending := none } })

/-! ## Requests that read -/

/-- STATUS, QUERY, GROUP_QUERY, PLAN_LIST and NOTICE_STATUS change nothing; STATUS with its clear flag zeroes the
counters once they are reported. A QUERY reply is 53 bytes with its result code, for a record whose lists are as long
as R26 lets them be. (What the rules leave open in these replies is the model's choice: log entries 22, 23, 33, 37, 39,
42, 43 and 45.) -/
def Obligations.ReadingChangesNothing : Prop :=
  ∀ s : State,
    Answered (.status 0) s s 0x01 .ok s.report
    ∧ Answered (.status 1) s { s with counters := Counters.zero } 0x01 .ok s.report
    ∧ (∀ x : Byte, 2 ≤ x.toNat → Refused (.status x) s 0x01 .badValue)
    ∧ (∀ f a r, addrOf s.segment f = some a → s.lookup a = some r →
        Answered (.query f) s s 0x08 .ok (queryContent r (s.ownEntry a)))
    ∧ (∀ f a, addrOf s.segment f = some a → s.lookup a = none → Refused (.query f) s 0x08 .noSuchEndpoint)
    ∧ (∀ b : Byte, b.toNat < 32 → ∃ content, Answered (.groupQuery b) s s 0x0D .ok content)
    ∧ (∀ b : Byte, 32 ≤ b.toNat → Refused (.groupQuery b) s 0x0D .badValue)
    ∧ (∀ b : Byte, b.toNat ≤ 63 → ∃ content, Answered (.planList b) s s 0x16 .ok content)
    ∧ (∀ b : Byte, 63 < b.toNat → Refused (.planList b) s 0x16 .badValue)
    ∧ (∃ content, Answered .noticeStatus s s 0x1C .ok content ∧ content.length = 189)
    ∧ ∀ (r : Record) (own : Option (QueueId × Entry)),
        r.primary.length ≤ 2 → (∀ l, r.alternate = some l → l.length ≤ 2) → r.intended.length ≤ 4 →
        (∀ l, r.confirmed = some l → l.length ≤ 4) → (queryContent r own).length = 52

/-- The fields of R183 that lie outside their ranges, a segment of SET_RANGE among them, are refused with BAD_VALUE and
an address without a record with NO_SUCH_ENDPOINT; neither changes anything. (Where a rule lists both without an order
the order is log entry 12.) -/
def Obligations.BadFieldsAreRefused : Prop :=
  ∀ (s : State) (f m n : Half) (b u x y : Byte),
    (addrOf s.segment f = none →
      Refused (.retire f) s 0x07 .badValue ∧ Refused (.query f) s 0x08 .badValue
        ∧ Refused (.set f x y) s 0x09 .badValue ∧ Refused (.override f x m y) s 0x0E .badValue
        ∧ Refused (.endOverride f) s 0x0F .badValue ∧ Refused (.poll f y) s 0x10 .badValue
        ∧ (f ≠ 0xFFFF → Refused (.push f y) s 0x11 .badValue) ∧ Refused (.forget f) s 0x12 .badValue)
    ∧ (∀ a, addrOf s.segment f = some a → s.lookup a = none →
        Refused (.retire f) s 0x07 .noSuchEndpoint ∧ Refused (.query f) s 0x08 .noSuchEndpoint
          ∧ Refused (.set f x y) s 0x09 .noSuchEndpoint ∧ Refused (.endOverride f) s 0x0F .noSuchEndpoint
          ∧ Refused (.poll f y) s 0x10 .noSuchEndpoint ∧ Refused (.push f y) s 0x11 .noSuchEndpoint
          ∧ Refused (.forget f) s 0x12 .noSuchEndpoint)
    ∧ (tariffOf x = none ∨ priorityOf y = none →
        (∀ a, addrOf s.segment f = some a → s.lookup a ≠ none → Refused (.set f x y) s 0x09 .badValue)
          ∧ Refused (.setRange b u n x y) s 0x0A .badValue ∧ Refused (.setGroup b x y) s 0x0B .badValue
          ∧ Refused (.override f x m y) s 0x0E .badValue ∧ Refused (.overrideGroup f x m y) s 0x0E .badValue)
    ∧ (priorityOf y = none →
        (∀ a, addrOf s.segment f = some a → s.lookup a ≠ none →
            Refused (.poll f y) s 0x10 .badValue ∧ Refused (.push f y) s 0x11 .badValue)
          ∧ Refused (.pushAll y) s 0x11 .badValue)
    ∧ (n = 0 ∨ 256 < n.toNat ∨ (7 < b.toNat ∧ b ≠ 0xFF) → Refused (.setRange b u n x y) s 0x0A .badValue)
    ∧ (minutesOf m = none →
        Refused (.override f x m y) s 0x0E .badValue ∧ Refused (.overrideGroup f x m y) s 0x0E .badValue)
    ∧ (groupOf b = none → Refused (.setGroup b x y) s 0x0B .badValue)
    ∧ (targetGroup f = none →
        Refused (.overrideGroup f x m y) s 0x0E .badValue ∧ Refused (.endOverrideGroup f) s 0x0F .badValue)

/-! ## Parameters and windows -/

/-- CONFIGURE within its ranges: staged parameters are staged and leave the active values, every other parameter named
takes its value and one not named keeps its own; the result is STAGED exactly when one of 1 to 3 is named. A change of
DEFAULT_COUPLER re-decodes every record that is not FIXED, one in flight by a mark, and the reply counts them; without
one the counts are 0. REFRESH_BACKLOG is evaluated when its mode or its limit is named. Out of range, or a parameter
twice, and nothing changes. (The widths of the counts are the model's choice, log entry 22.) -/
def Obligations.ConfigureSetsParameters : Prop :=
  ∀ (pairs : List (Byte × Half)) (s : State), 1 ≤ pairs.length → pairs.length ≤ 11 →
    (pairsOk pairs = false → Refused (.configure pairs) s 0x02 .badValue)
    ∧ (pairsOk pairs = true →
      Completes (.configure pairs) s fun t =>
        t.arbiter.slotHc.active = s.arbiter.slotHc.active ∧ t.arbiter.pipeline.active = s.arbiter.pipeline.active
          ∧ t.arbiter.guard.active = s.arbiter.guard.active
          ∧ (∀ v, (1, v) ∈ pairs → t.arbiter.slotHc.staged = some v.toNat)
          ∧ (∀ v, (2, v) ∈ pairs → t.arbiter.pipeline.staged = some (v == 1))
          ∧ (∀ v, (3, v) ∈ pairs → t.arbiter.guard.staged = some v.toNat)
          ∧ (∀ v, (4, v) ∈ pairs → t.attempts = v.toNat)
          ∧ (∀ v, (5, v) ∈ pairs → t.defaultCoupler = couplerOf (v.setWidth 8))
          ∧ (∀ v, (6, v) ∈ pairs → t.arbiter.lineMask = v.toNat)
          ∧ (∀ v, (7, v) ∈ pairs → t.refresh.mode = if v = 1 then .external else .auto)
          ∧ (∀ v, (8, v) ∈ pairs → t.refresh.interval = v.toNat
              ∧ t.refresh.timer = s.timebase.uptime + BitVec.ofNat 32 v.toNat)
          ∧ (∀ v, (9, v) ∈ pairs → t.refresh.kind = if v = 1 then .scrub else .reassert)
          ∧ (∀ v, (10, v) ∈ pairs → t.refresh.priority = v.toNat)
          ∧ (∀ v, (11, v) ∈ pairs → t.refresh.limit = v.toNat)
          ∧ (names pairs 1 = false → t.arbiter.slotHc = s.arbiter.slotHc)
          ∧ (names pairs 4 = false → t.attempts = s.attempts)
          ∧ (names pairs 5 = false → t.defaultCoupler = s.defaultCoupler ∧ t.table = s.table)
          ∧ (names pairs 6 = false → t.arbiter.lineMask = s.arbiter.lineMask)
          ∧ (names pairs 8 = false → t.refresh.interval = s.refresh.interval ∧ t.refresh.timer = s.refresh.timer)
          ∧ t.refresh.backlog = s.refresh.backlog ∧ t.refresh.missed = s.refresh.missed
          ∧ t.refresh.pointer = s.refresh.pointer ∧ t.refresh.inFlight = s.refresh.inFlight
          ∧ t.urgent = s.urgent ∧ t.normal = s.normal ∧ t.contexts = s.contexts ∧ t.plan = s.plan
          ∧ t.lastCode = some (if names pairs 1 || names pairs 2 || names pairs 3 then 0x06 else 0x00)
          ∧ (names pairs 2 = false → t.arbiter.pipeline = s.arbiter.pipeline)
          ∧ (names pairs 3 = false → t.arbiter.guard = s.arbiter.guard)
          ∧ (names pairs 7 = false → t.refresh.mode = s.refresh.mode)
          ∧ (names pairs 9 = false → t.refresh.kind = s.refresh.kind)
          ∧ (names pairs 10 = false → t.refresh.priority = s.refresh.priority)
          ∧ (names pairs 11 = false → t.refresh.limit = s.refresh.limit)
          ∧ (t.refresh.backlogLevel =
              if names pairs 7 || names pairs 11 then t.refresh.overLimit else s.refresh.backlogLevel)
          ∧ (let code : Byte := if names pairs 1 || names pairs 2 || names pairs 3 then 0x06 else 0x00
            (t.defaultCoupler = s.defaultCoupler →
              t.table = s.table ∧ t.lastPayload = some [code, 0, 0, 0, 0, 0, 0])
            ∧ (t.defaultCoupler ≠ s.defaultCoupler →
              t.table = s.table.map (fun r =>
                if r.source = .fixed then r
                else if r.inFlight then { r with redecodeDue := true }
                else { r with
                  coupler := (t.decodeCoupler r.addr).getD r.coupler, source := .window, redecodeDue := false })
              ∧ t.lastPayload = some (code :: 1 ::
                  (n2 (s.table.countP fun r => r.source != .fixed && !r.inFlight)
                    ++ n1 (s.table.countP fun r => r.source != .fixed && r.inFlight)
                    ++ n2 (s.table.countP fun r =>
                        r.source != .fixed && !r.inFlight && (t.decodeCoupler r.addr).isNone))))))

/-- SEGMENT_SET sets the default segment within 0..7; WINDOW_SET replaces a window and re-decodes every record that is
not FIXED: at once, or by a mark when it is in flight; nothing else changes, and the reply counts the records decoded
at once, those deferred and those found unroutable. A window above 7, a coupler other than A, B or C, an enabled flag
other than 0 or 1, an address out of range, and a base above the limit are refused. The coupler decoded is that of the
first enabled window that contains the address, else DEFAULT_COUPLER. (The widths of the counts are the model's choice,
log entry 22.) -/
def Obligations.SegmentAndWindowSet : Prop :=
  (∀ s : State,
    (∀ b : Byte, b.toNat < 8 → Answered (.segmentSet b) s { s with segment := b.setWidth 3 } 0x03 .ok [])
    ∧ (∀ b : Byte, 8 ≤ b.toNat → Refused (.segmentSet b) s 0x03 .badValue)
    ∧ ∀ (w : Fin 8) (base limit : Half) (x : Byte) (b l : Addr) (p : Phase) (on : Bool),
        addrOf s.segment base = some b → addrOf s.segment limit = some l → phaseOf x = some p →
        (b ≤ l →
          Completes (.windowSet (BitVec.ofNat 8 w.val) base limit x (if on then 1 else 0)) s fun t =>
            t.windows = s.windows.set w.val { base := b, limit := l, coupler := p, enabled := on }
              ∧ t.urgent = s.urgent ∧ t.normal = s.normal ∧ SameElsewhere s { t with windows := s.windows }
              ∧ t.counters = s.counters ∧ t.counts = s.counts ∧ t.fifo = s.fifo
              ∧ (let movable := s.table.filter fun r => r.source != .fixed
                 t.lastPayload = some ([0x00] ++ n2 (movable.countP fun r => !r.inFlight)
                   ++ n1 (movable.countP fun r => r.inFlight)
                   ++ n2 (movable.countP fun r => !r.inFlight && (t.decodeCoupler r.addr).isNone)))
              ∧ ∀ (a : Addr) (r : Record), s.lookup a = some r → ∃ r', t.lookup a = some r'
                  ∧ (r.source = .fixed → r' = r)
                  ∧ (r.source ≠ .fixed → r.inFlight = true → r' = { r with redecodeDue := true })
                  ∧ (r.source ≠ .fixed → r.inFlight = false →
                      r' = { r with
                        coupler := (t.decodeCoupler r.addr).getD r.coupler, source := .window
                        redecodeDue := false }))
        ∧ (l < b → Refused (.windowSet (BitVec.ofNat 8 w.val) base limit x (if on then 1 else 0)) s 0x04 .badValue))
  ∧ (∀ (s : State) (w x e : Byte) (base limit : Half),
      7 < w.toNat ∨ 2 < x.toNat ∨ 1 < e.toNat ∨ addrOf s.segment base = none ∨ addrOf s.segment limit = none →
      Refused (.windowSet w base limit x e) s 0x04 .badValue)
  ∧ ∀ (s : State) (a : Addr),
      let holds := fun w : Fin 8 =>
        s.windows[w].enabled = true ∧ s.windows[w].base ≤ a ∧ a ≤ s.windows[w].limit
      (∀ w, holds w → (∀ v < w, ¬holds v) → s.decodeCoupler a = some (.single s.windows[w].coupler))
      ∧ ((∀ w, ¬holds w) → s.decodeCoupler a = s.defaultCoupler)

/-! ## Records -/

/-- ENROL whose checks pass creates the record with the fields of the request in the lowest free slot, with the image
of R31, and a delivery placed at the request's priority where it is PENDING; every other record stays. The reply gives
its slot, coupler, source, image state and cover. ENROL that fails a check is refused with the code of the first it
fails, in the order of R29. (That encodings are judged before ranges, and hop counts between them, is read from the
rules, log entry 34; that no address of a route is judged beside a hop count out of its encoding, log entry 44, and
that a group list keeps the order of the request, log entry 42, are the model's choice.) -/
def Obligations.EnrolCreatesRecord : Prop :=
  (∀ (s : State) (f : EnrolFields) (a : Addr) (cls : EndpointClass) (x : Coupler × CouplerSource) (p : Nat)
    (route : List Addr),
    enrolEncodingOk s.segment f = true → addrOf s.segment f.addr = some a → classOf f.cls = some cls →
    readRoute s.segment f.primary = .route route → enrolAlternateOk (readRoute s.segment f.alternate) = true →
    enrolRefusal f a s = none → s.enrolCoupler a f.fixedCoupler = some x → priorityOf f.priority = some p →
    Completes (.enrol f) s fun t =>
      (∃ r, t.lookup a = some r ∧ r.addr = a ∧ r.slot = lowestFree 0 (s.table.map (·.slot))
          ∧ r.check = f.check.setWidth 4 ∧ r.cls = cls ∧ r.primary = route
          ∧ r.alternate = (readRoute s.segment f.alternate).hops? ∧ r.coupler = x.1 ∧ r.source = x.2
          ∧ r.enforce = flagSet f.enforce ∧ r.pinned = flagSet f.pinned ∧ r.intended = groupsOf f.groups
          ∧ r.confirmed = (if flagSet f.fresh then some [] else none) ∧ r.desired = tariffOf f.initialTariff
          ∧ r.revision = (if (tariffOf f.initialTariff).isSome then 1 else 0)
          ∧ r.reach = .reachable ∧ r.failures = 0 ∧ r.inFlight = false ∧ r.override = none ∧ r.mark = none
          ∧ (∀ k : Cond, r.flag k = false)
          ∧ (cls = .pass → r.image = .none)
          ∧ (cls ≠ .pass → tariffOf f.initialTariff = none → r.image = .unknown)
          ∧ (cls ≠ .pass → (tariffOf f.initialTariff).isSome = true → flagSet f.assumedHeld = true →
              r.image = .confirmed ∧ r.held = r.desired)
          ∧ (cls = .immediate → (tariffOf f.initialTariff).isSome = true → flagSet f.assumedHeld = false →
              s.hasRoom (queueFor p) = true → r.image = .pending .ownEntry ∧ t.lastCode = some 0x02)
          ∧ (cls = .immediate → (tariffOf f.initialTariff).isSome = true → flagSet f.assumedHeld = false →
              s.hasRoom (queueFor p) = false → r.image = .pending .refresh ∧ t.lastCode = some 0x04)
          ∧ (cls = .deferred → (tariffOf f.initialTariff).isSome = true → flagSet f.assumedHeld = false →
              r.image = .pending .refresh ∧ t.lastCode = some 0x04)
          ∧ noticeGroupOf f.noticeGroup = some r.noticeGroup
          ∧ r.held = (if flagSet f.assumedHeld then tariffOf f.initialTariff else none)
          ∧ r.rxQuality = none ∧ r.endpointQuality = none ∧ r.redecodeDue = false
          ∧ (cls ≠ .pass → (tariffOf f.initialTariff).isSome = true → flagSet f.assumedHeld = false →
              Delivered a p .request r s t)
          ∧ (cls = .pass ∨ tariffOf f.initialTariff = none ∨ flagSet f.assumedHeld = true →
              NothingPlaced s t ∧ t.lastCode = some 0x00)
          ∧ t.lastPayload = t.lastCode.map (· ::
              (n2 r.slot ++ n1 r.coupler.code ++ n1 r.source.code ++ n1 r.image.code ++ r.image.coverBytes)))
        ∧ OtherRecordsSame a s t ∧ SameElsewhere s t ∧ t.counts = s.counts ∧ t.fifo = s.fifo)
  ∧ ∀ (s : State) (f : EnrolFields),
      let counted := enrolPrimaryOk (readRoute s.segment f.primary) = true
        ∧ enrolAlternateOk (readRoute s.segment f.alternate) = true
      (enrolEncodingOk s.segment f = false → Refused (.enrol f) s 0x05 .badValue)
      ∧ (enrolEncodingOk s.segment f = true → ¬counted → Refused (.enrol f) s 0x05 .badRoute)
      ∧ ∀ (a : Addr) (code : ResultCode), enrolEncodingOk s.segment f = true → counted →
          addrOf s.segment f.addr = some a →
          let groups := usedGroups f.groups
          let routes := [(readRoute s.segment f.primary).hops?, (readRoute s.segment f.alternate).hops?]
          FirstOf
            [(15 < f.check.toNat ∨ (∃ b ∈ groups, 31 < b.toNat) ∨ ¬groups.Nodup ∨ 7 < f.noticeGroup.toNat
                ∨ (f.initialTariff ≠ 0xFF ∧ 15 < f.initialTariff.toNat)
                ∨ f.priority.toNat = 0 ∨ 7 < f.priority.toNat ∨ (f.cls = 2 ∧ f.initialTariff ≠ 0xFF), .badValue),
             (∃ l, some l ∈ routes ∧ (a ∈ l ∨ ¬l.Nodup), .badRoute),
             (s.lookup a ≠ none, .alreadyEnrolled),
             (f.pinned = 1 ∧ 120 ≤ s.table.countP (fun r => r.pinned), .pinLimit),
             (couplerOf f.fixedCoupler = none ∧ s.decodeCoupler a = none, .noRoute),
             (960 ≤ s.table.length, .tableFull)] code →
          Refused (.enrol f) s 0x05 code

/-- AMEND whose checks pass, keeping the class: the changes carried are stored, the others left, the failure count of a
REACHABLE record returns to 0 with either route, and a fixed coupler is stored as FIXED; every other record stays. A
coupler released is decoded afresh (also where it was not FIXED, log entry 17), a RETRY entry takes the route its
failure count now selects, and a record whose cover GROUP(g) is taken away is covered as by a SET. A change of class to
PASS clears the desired tariff, the override, the mark and MISMATCH, moves the revision if a tariff was desired,
removes every own entry and leaves the image NONE; the held tariff, the reported flags, the reach and the failure count
are kept. From PASS the image is UNKNOWN without a desired tariff. From IMMEDIATE to DEFERRED an own DELIVER entry
goes, its cover then REFRESH (a POLL entry and the cover that rests on it stay, log entry 15); from DEFERRED to
IMMEDIATE a REACHABLE record that waits for refresh gets an entry, or QUEUE_FULL is counted. AMEND that fails a check
is refused with the code of the first it fails (its order, log entries 12 and 34). (That a group list keeps the order
of the request, log entry 42, and that no address of a route is judged beside a hop count out of its encoding, log
entry 44, are the model's choice.) -/
def Obligations.AmendStoresChanges : Prop :=
  (∀ (s : State) (f : AmendFields) (a : Addr) (r : Record) (p : Nat),
      amendEncodingOk s.segment f = true → addrOf s.segment f.addr = some a → s.lookup a = some r →
      amendPrimaryOk (readRoute s.segment f.primary) = true →
      amendAlternateOk (readRoute s.segment f.alternate) = true →
      amendRefusal f r s = none → priorityOf f.priority = some p → f.cls = 0xFF →
      Completes (.amend f) s fun t =>
        (∃ r', t.lookup a = some r' ∧ r'.addr = a ∧ r'.slot = r.slot ∧ r'.cls = r.cls
            ∧ r'.primary = ((readRoute s.segment f.primary).hops?).getD r.primary
            ∧ (readRoute s.segment f.alternate = .codeFE → r'.alternate = r.alternate)
            ∧ (readRoute s.segment f.alternate = .codeFF → r'.alternate = none)
            ∧ (∀ l, readRoute s.segment f.alternate = .route l → r'.alternate = some l)
            ∧ (r.reach = .reachable → amendCarriesRoute f s.segment = true → r'.failures = 0)
            ∧ (r.reach = .lost ∨ amendCarriesRoute f s.segment = false → r'.failures = r.failures)
            ∧ (∀ x, couplerOf f.fixedCoupler = some x → r'.coupler = x ∧ r'.source = .fixed)
            ∧ (f.fixedCoupler = 0xFE → r'.coupler = r.coupler ∧ r'.source = r.source)
            ∧ r'.intended = (amendNewGroups f).getD r.intended ∧ r'.pinned = (amendNewPinned f).getD r.pinned
            ∧ r'.noticeGroup = (noticeGroupOf f.noticeGroup).getD r.noticeGroup
            ∧ r'.enforce = (if f.enforce = 0xFF then r.enforce else flagSet f.enforce)
            ∧ r'.desired = r.desired ∧ r'.revision = r.revision ∧ r'.held = r.held ∧ r'.reach = r.reach
            ∧ ∀ k : Cond, r'.flag k = r.flag k)
          ∧ OtherRecordsSame a s t ∧ SameElsewhere s t)
  ∧ (∀ (s : State) (f : AmendFields) (a : Addr) (r : Record) (p : Nat) (new : EndpointClass),
      amendEncodingOk s.segment f = true → addrOf s.segment f.addr = some a → s.lookup a = some r →
      amendPrimaryOk (readRoute s.segment f.primary) = true →
      amendAlternateOk (readRoute s.segment f.alternate) = true →
      amendRefusal f r s = none → priorityOf f.priority = some p → new = (classOf f.cls).getD r.cls →
      let x := s.amended f r
      let rerouted := { s with urgent := s.amendedQueue f r .urgent, normal := s.amendedQueue f r .normal }
      let own := rerouted.ownEntry a
      let coverLost := ∃ g, r.image = .pending (.group g) ∧ (x.pinned = true ∨ g ∉ x.intended)
      let ends := fun q : State → Prop =>
        Completes (.amend f) s fun t => OtherRecordsSame a s t ∧ SameElsewhere s t ∧ t.lastCode = some 0x00 ∧ q t
      let dropped := fun t : State => ∀ k, t.queue k = (rerouted.queue k).filter (fun e => !e.isFor a)
      let uncounted := fun t : State =>
        t.counters.queueFull = s.counters.queueFull ∧ t.counters.stranded = s.counters.stranded
      (new = r.cls → ¬coverLost → ends fun t => t.lookup a = some x ∧ NothingPlaced rerouted t)
      ∧ (new = r.cls → coverLost → ends fun t => Delivered a p .request { x with mark := none } rerouted t)
      ∧ (new = .pass → r.cls ≠ .pass → ends fun t =>
          t.lookup a = some { x with
              desired := none, override := none, mark := none, mismatch := false, image := .none
              revision := if r.desired.isSome then r.revision + 1 else r.revision }
            ∧ dropped t ∧ (¬coverLost → uncounted t))
      ∧ (new ≠ .pass → r.cls = .pass → r.image = .none → ends fun t =>
          t.lookup a = some { x with image := .unknown, desired := none } ∧ dropped t ∧ uncounted t)
      ∧ (new = .deferred → r.cls = .immediate →
          (¬coverLost → (∀ k e, own = some (k, e) → e.work ≠ .deliver a) → ends fun t =>
            t.lookup a = some x ∧ NothingPlaced rerouted t)
          ∧ (¬coverLost → ∀ k e, own = some (k, e) → e.work = .deliver a → ends fun t =>
              t.lookup a = some { x with
                  image := if r.image = .pending .ownEntry then .pending .refresh else r.image }
                ∧ dropped t ∧ uncounted t)
          ∧ (coverLost → own = none → ends fun t =>
              t.lookup a = some { x with mark := none, image := .pending .refresh }
                ∧ t.urgent = rerouted.urgent ∧ t.normal = rerouted.normal
                ∧ (r.reach = .lost ∨ s.hasRoom (queueFor p) = true → uncounted t)
                ∧ (r.reach = .reachable → s.hasRoom (queueFor p) = false →
                    t.counters.queueFull = min (s.counters.queueFull + 1) 65535
                      ∧ t.counters.stranded = min (s.counters.stranded + 1) 65535)))
      ∧ (new = .immediate → r.cls = .deferred → ∀ y : Record,
          (¬coverLost ∧ y = x) ∨ (coverLost ∧ y = { x with mark := none, image := .pending .refresh }) →
          (y.image = .pending .refresh → r.reach = .reachable →
            (s.hasRoom (queueFor p) = true → ends fun t =>
              t.lookup a = some { y with image := .pending .ownEntry }
                ∧ Enqueued (queueFor p) { work := .deliver a, priority := p, origin := .request } rerouted t
                ∧ uncounted t)
            ∧ (s.hasRoom (queueFor p) = false → ends fun t =>
              t.lookup a = some y ∧ t.urgent = rerouted.urgent ∧ t.normal = rerouted.normal
                ∧ t.counters.queueFull = min (s.counters.queueFull + 1) 65535
                ∧ t.counters.stranded = s.counters.stranded))
          ∧ (y.image ≠ .pending .refresh ∨ r.reach = .lost → ends fun t =>
              t.lookup a = some y ∧ NothingPlaced rerouted t)))
  ∧ ∀ (s : State) (f : AmendFields),
      let counted := amendPrimaryOk (readRoute s.segment f.primary) = true
        ∧ amendAlternateOk (readRoute s.segment f.alternate) = true
      (amendEncodingOk s.segment f = false → Refused (.amend f) s 0x06 .badValue)
      ∧ (amendEncodingOk s.segment f = true → ¬counted → Refused (.amend f) s 0x06 .badRoute)
      ∧ ∀ a : Addr, amendEncodingOk s.segment f = true → counted → addrOf s.segment f.addr = some a →
          let groups := usedGroups f.groups
          let routes := [(readRoute s.segment f.primary).hops?, (readRoute s.segment f.alternate).hops?]
          (s.lookup a = none → Refused (.amend f) s 0x06 .noSuchEndpoint)
          ∧ ∀ (r : Record) (code : ResultCode), s.lookup a = some r →
              FirstOf
                [(r.inFlight = true, .inFlight),
                 ((f.groups.count ≠ 0xFF ∧ ((∃ b ∈ groups, 31 < b.toNat) ∨ ¬groups.Nodup))
                    ∨ (f.noticeGroup ≠ 0xFF ∧ 7 < f.noticeGroup.toNat)
                    ∨ f.priority.toNat = 0 ∨ 7 < f.priority.toNat, .badValue),
                 (∃ l, some l ∈ routes ∧ (a ∈ l ∨ ¬l.Nodup), .badRoute),
                 (f.pinned = 1 ∧ r.pinned = false ∧ 120 ≤ s.table.countP (fun r => r.pinned), .pinLimit),
                 (f.fixedCoupler = 0xFF ∧ s.decodeCoupler a = none, .noRoute)] code →
              Refused (.amend f) s 0x06 code

/-- RETIRE of a record that is not in flight removes it and its entries, and takes it out of the source count of each
condition it shows; no line, notice or counter and nothing else changes. In flight it is refused. -/
def Obligations.RetireRemovesRecord : Prop :=
  ∀ (s : State) (f : Half) (a : Addr) (r : Record), addrOf s.segment f = some a → s.lookup a = some r →
    (r.inFlight = true → Refused (.retire f) s 0x07 .inFlight)
    ∧ (r.inFlight = false →
      Completes (.retire f) s fun t =>
        t.lookup a = none ∧ OtherRecordsSame a s t ∧ SameElsewhere s t
          ∧ t.urgent = s.urgent.filter (fun e => !e.isFor a) ∧ t.normal = s.normal.filter (fun e => !e.isFor a)
          ∧ t.counters = s.counters ∧ t.lines = s.lines ∧ t.fifo = s.fifo ∧ t.lastPayload = some [0x00]
          ∧ ∀ (k : Cond) (n : NoticeGroup), t.counts[countIndex k n]
              = s.counts[countIndex k n] - (if r.flag k = true ∧ r.noticeGroup = n then 1 else 0))

/-! ## SET and its relatives -/

/-- What a SET makes of a record that is neither PASS nor under override and is not CONFIRMED at the tariff: a new
statement, PENDING with the cover of R50, in each of its cases; the reply gives the image state, the cover and the new
revision. An own entry of the normal queue moves to the tail of the urgent queue when the request's priority is higher
and 5 to 7 and there is room; else the entries stay as they were. -/
def Obligations.SetStatesTariff : Prop :=
  ∀ (s : State) (f : Half) (x y : Byte) (a : Addr) (r : Record) (t : Tariff) (p : Nat),
    addrOf s.segment f = some a → s.lookup a = some r → tariffOf x = some t → priorityOf y = some p →
    r.cls ≠ .pass → r.override = none → ¬(r.desired = some t ∧ r.image = .confirmed) →
    let stated := fun cover : Cover =>
      { r with desired := some t, revision := r.revision + 1, mark := none, image := .pending cover }
    let left := fun (u : State) (cover : Cover) (code : Byte) =>
      u.lookup a = some (stated cover) ∧ OtherRecordsSame a s u ∧ SameElsewhere s u ∧ u.counts = s.counts
        ∧ u.fifo = s.fifo
        ∧ u.lastPayload = some ([code, 0x02] ++ (Image.pending cover).coverBytes ++ bytes2 (r.revision + 1))
    (r.inFlight = true →
      Completes (.set f x y) s fun u =>
        left u .inFlight 0x03 ∧ u.urgent = s.urgent ∧ u.normal = s.normal ∧ u.counters = s.counters)
    ∧ (r.inFlight = false → s.ownEntry a = none → r.cls = .immediate → r.reach = .reachable →
        s.hasRoom (queueFor p) = true →
      Completes (.set f x y) s fun u =>
        left u .ownEntry 0x02 ∧ u.counters = s.counters
          ∧ (5 ≤ p → u.urgent = s.urgent ++ [{ work := .deliver a, priority := p, origin := .request }]
              ∧ u.normal = s.normal)
          ∧ (p < 5 → u.normal = s.normal ++ [{ work := .deliver a, priority := p, origin := .request }]
              ∧ u.urgent = s.urgent))
    ∧ (r.inFlight = false → s.ownEntry a = none → r.cls = .immediate → r.reach = .reachable →
        s.hasRoom (queueFor p) = false →
      Completes (.set f x y) s fun u =>
        left u .refresh 0x04 ∧ u.urgent = s.urgent ∧ u.normal = s.normal
          ∧ u.counters = { s.counters with
              queueFull := min (s.counters.queueFull + 1) 65535
              stranded := min (s.counters.stranded + 1) 65535 })
    ∧ (r.inFlight = false → s.ownEntry a = none → (r.cls = .deferred ∨ r.reach = .lost) →
      Completes (.set f x y) s fun u =>
        left u .refresh 0x04 ∧ u.urgent = s.urgent ∧ u.normal = s.normal ∧ u.counters = s.counters)
    ∧ (r.inFlight = false → s.ownEntry a ≠ none →
      Completes (.set f x y) s fun u => left u .ownEntry 0x02 ∧ u.counters = s.counters
        ∧ ((∀ e, s.ownEntry a ≠ some (.normal, e)) → (∀ e ∈ s.normal, e.isFor a = false) →
            u.urgent = s.urgent ∧ u.normal = s.normal)
        ∧ ∀ e, s.ownEntry a = some (.normal, e) →
            (e.priority < p → 5 ≤ p → s.urgent.length < 32 →
              u.normal = s.normal.filter (fun x => !x.isFor a)
                ∧ u.urgent = s.urgent ++ [{ work := e.work, priority := p, origin := .request }])
            ∧ (¬(e.priority < p ∧ 5 ≤ p ∧ s.urgent.length < 32) → u.urgent = s.urgent ∧ u.normal = s.normal))

/-- A SET that states nothing new: CONFIRMED at the tariff it is UNCHANGED; under an override only the saved tariff is
written; for no record it is refused; for a PASS record it travels in a PASS_DELIVER entry and changes no record,
refused in flight and when the queue is full; the replies of these give the image state, cover and revision that stand;
where such an entry waits already its tariff is replaced, and the entry moves as for any SET. -/
def Obligations.SetWithoutStatement : Prop :=
  ∀ (s : State) (f : Half) (x y : Byte) (a : Addr) (t : Tariff) (p : Nat),
    addrOf s.segment f = some a → tariffOf x = some t → priorityOf y = some p →
    (s.lookup a = none → Refused (.set f x y) s 0x09 .noSuchEndpoint)
    ∧ (∀ r, s.lookup a = some r → r.cls ≠ .pass → r.override = none → r.desired = some t → r.image = .confirmed →
        Answered (.set f x y) s s 0x09 .unchanged ([0x03, 0x00, 0xFF] ++ bytes2 r.revision))
    ∧ (∀ r o, s.lookup a = some r → r.cls ≠ .pass → r.override = some o →
        Completes (.set f x y) s fun u =>
          u.lookup a = some { r with override := some { o with saved := t } } ∧ OtherRecordsSame a s u
            ∧ SameElsewhere s u ∧ u.urgent = s.urgent ∧ u.normal = s.normal ∧ u.counters = s.counters
            ∧ u.lastPayload = some ([0x05] ++ n1 r.image.code ++ r.image.coverBytes ++ bytes2 r.revision))
    ∧ ∀ r, s.lookup a = some r → r.cls = .pass →
        (r.inFlight = true → Refused (.set f x y) s 0x09 .inFlight)
        ∧ (r.inFlight = false → s.ownEntry a = none → s.hasRoom (queueFor p) = true →
          Completes (.set f x y) s fun u =>
            u.table = s.table ∧ SameElsewhere s u ∧ u.counters = s.counters
              ∧ u.lastPayload = some ([0x02] ++ n1 r.image.code ++ r.image.coverBytes ++ bytes2 r.revision)
              ∧ (5 ≤ p → u.urgent = s.urgent ++ [{ work := .passDeliver a t, priority := p, origin := .request }]
                  ∧ u.normal = s.normal)
              ∧ (p < 5 → u.normal = s.normal ++ [{ work := .passDeliver a t, priority := p, origin := .request }]
                  ∧ u.urgent = s.urgent))
        ∧ (r.inFlight = false → s.ownEntry a = none → s.hasRoom (queueFor p) = false →
          Answered (.set f x y) s
            { s with counters := { s.counters with queueFull := min (s.counters.queueFull + 1) 65535 } }
            0x09 .queueFull [])
        ∧ (r.inFlight = false → ∀ (k : QueueId) (e : Entry), s.ownEntry a = some (k, e) →
          (∀ e ∈ s.urgent ++ s.normal, e.isFor a = true → ∃ d, e.work = .passDeliver a d) →
          (k = .urgent → ∀ e ∈ s.normal, e.isFor a = false) →
          let replaced := fun l : List Entry => l.map fun e =>
            if e.isFor a then { e with work := .passDeliver a t } else e
          Completes (.set f x y) s fun u =>
            u.table = s.table ∧ SameElsewhere s u ∧ u.counters = s.counters
              ∧ u.lastPayload = some ([0x02] ++ n1 r.image.code ++ r.image.coverBytes ++ bytes2 r.revision)
              ∧ (k = .normal ∧ e.priority < p ∧ 5 ≤ p ∧ s.urgent.length < 32 →
                  u.normal = s.normal.filter (fun x => !x.isFor a)
                    ∧ u.urgent = s.urgent ++ [{ work := .passDeliver a t, priority := p, origin := .request }])
              ∧ (¬(k = .normal ∧ e.priority < p ∧ 5 ≤ p ∧ s.urgent.length < 32) →
                  u.urgent = replaced s.urgent ∧ u.normal = replaced s.normal))

/-- SET_RANGE within its ranges is answered OK with three counts whose sum is the count requested, and leaves pinned
and PASS records as they are. Skipped are the units without a record and those two, unchanged the records CONFIRMED at
the tariff without an override, changed all the others: each is given the tariff as a SET gives it, saved under an
override, else stated with the cover of R50, an entry of its own while its queue has room. Records outside the range
are left as they are. -/
def Obligations.SetRangeCountsUnits : Prop :=
  ∀ (s : State) (seg start : Byte) (count : Half) (x y : Byte) (g : Segment) (t : Tariff) (p : Nat),
    segmentOrDefault s.segment seg = some g → tariffOf x = some t → priorityOf y = some p →
    1 ≤ count.toNat → count.toNat ≤ 256 →
    ∃ (u : State) (changed unchanged skipped : Nat),
      Answered (.setRange seg start count x y) s u 0x0A .ok (n2 changed ++ n2 unchanged ++ n2 skipped)
        ∧ changed + unchanged + skipped = count.toNat
        ∧ SameElsewhere s u
        ∧ (∀ (a : Addr) (r : Record), s.lookup a = some r → r.pinned = true ∨ r.cls = .pass → u.lookup a = some r)
        ∧ skipped = (unitsOf g start count.toNat).countP
            (fun a => (s.lookup a).all fun r => r.pinned || r.cls == .pass)
        ∧ unchanged = (unitsOf g start count.toNat).countP
            (fun a => (s.lookup a).any fun r => !r.pinned && r.cls != .pass && r.override == none
              && r.desired == some t && r.image == .confirmed)
        ∧ (∀ a : Addr, a ∉ unitsOf g start count.toNat → u.lookup a = s.lookup a)
        ∧ (∀ a : Addr, s.lookup a = none → u.lookup a = none)
        ∧ ∀ (a : Addr) (r : Record), a ∈ unitsOf g start count.toNat → s.lookup a = some r → r.pinned = false →
            r.cls ≠ .pass →
            (∀ o, r.override = some o → u.lookup a = some { r with override := some { o with saved := t } })
            ∧ (r.override = none → r.desired = some t → r.image = .confirmed → u.lookup a = some r)
            ∧ (r.override = none → ¬(r.desired = some t ∧ r.image = .confirmed) →
                let stated := fun cover : Cover => u.lookup a = some { r with
                  desired := some t, revision := r.revision + 1, mark := none, image := .pending cover }
                (r.inFlight = true → stated .inFlight)
                ∧ (r.inFlight = false → s.ownEntry a ≠ none → stated .ownEntry)
                ∧ (r.inFlight = false → s.ownEntry a = none → r.cls = .deferred ∨ r.reach = .lost → stated .refresh)
                ∧ (r.inFlight = false → s.ownEntry a = none → r.cls = .immediate → r.reach = .reachable →
                    (stated .ownEntry
                        ∧ { work := .deliver a, priority := p, origin := .request } ∈ u.queue (queueFor p))
                      ∨ (stated .refresh ∧ u.hasRoom (queueFor p) = false)))

/-- SET_GROUP writes the group tariff; without an eligible member it is NO_MEMBERS, with every count 0, and nothing but
that tariff and the reply changes. Else a member under override takes the tariff as its saved one; one believed at it,
CONFIRMED or SHARED, stays as it is; to any other it is stated, with cover IN_FLIGHT in flight and else GROUP(g), its
own entry gone, and the group's entry is settled: kept or moved, inserted, or QUEUE_FULL, those members then waiting
for refresh. A record that is no eligible member is left as it is. The reply counts the members changed, unchanged and
saved, and gives the frame state. (The widths of the counts are the model's choice, log entry 22.) -/
def Obligations.SetGroupTreatsMembers : Prop :=
  ∀ (s : State) (b x y : Byte) (g : Group) (t : Tariff) (p : Nat),
    groupOf b = some g → tariffOf x = some t → priorityOf y = some p →
    (s.members g = [] →
      Completes (.setGroup b x y) s fun u =>
        ({ u with groups := s.groups, link := s.link } : State) = s
          ∧ u.groups = s.groups.set g { s.groups[g] with tariff := some t }
          ∧ u.lastPayload = some ([0x07, 0, 0, 0, 0, 0, 0] ++ n1 (s.frameState g).code))
    ∧ (s.members g ≠ [] → s.addrs.Nodup →
        let free := fun r : Record => r.override == none
        let believed := fun r : Record => r.desired == some t && (r.image == .confirmed || r.image == .shared)
        let changed := (s.members g).filter fun r => free r && !believed r
        let stated := fun r : Record => { r with desired := some t, revision := r.revision + 1, mark := none }
        Completes (.setGroup b x y) s fun u =>
          u.groups = s.groups.set g { s.groups[g] with tariff := some t }
            ∧ SameElsewhere s { u with groups := s.groups } ∧ u.counts = s.counts ∧ u.fifo = s.fifo
            ∧ GroupSettled g p .request ((changed.filter fun r => !r.inFlight).map stated) s u
            ∧ (∀ (a : Addr) (r : Record), s.lookup a = some r →
                (r.eligible g = false ∨ (free r = true ∧ believed r = true) → u.lookup a = some r)
                ∧ (∀ o, r.eligible g = true → r.override = some o →
                    u.lookup a = some { r with override := some { o with saved := t } })
                ∧ (r ∈ changed → r.inFlight = true →
                    u.lookup a = some { stated r with image := .pending .inFlight }))
            ∧ u.lastPayload = u.lastCode.map (· ::
                (n2 changed.length ++ n2 ((s.members g).countP fun r => free r && believed r)
                  ++ n2 ((s.members g).countP fun r => !free r) ++ n1 (u.frameState g).code)))

/-- GROUP_SET sets the repeat count of a group and nothing else, out of range it is refused; the next launch of the
group takes the new count, and a frame in flight keeps its own. -/
def Obligations.GroupSetSetsRepeats : Prop :=
  ∀ (s : State) (b x : Byte),
    (31 < b.toNat ∨ 3 < x.toNat → Refused (.groupSet b x) s 0x0C .badValue)
    ∧ ∀ (g : Group) (n : Fin 4), b = BitVec.ofNat 8 g.val → x = BitVec.ofNat 8 n.val →
        Answered (.groupSet b x) s { s with groups := s.groups.set g { s.groups[g] with repeats := n } } 0x0C .ok []
          ∧ ∀ (src : Source) (p : Nat),
              ∃ c, (State.launchGroup
                  { s with groups := s.groups.set g { s.groups[g] with repeats := n } } g src p).contexts
                    = s.contexts ++ [c]
                ∧ (∃ t, c.job = .group g t n) ∧ c.remaining = 1 + n.val

/-! ## Overrides -/

/-- OVERRIDE of a record that wants another tariff, or is not CONFIRMED at the one given: the ordinary tariff is saved,
or kept saved, the end lies 60 m seconds of uptime ahead modulo 2^32, and the override tariff is stated, PENDING with
cover IN_FLIGHT in flight, its own entry kept or moved, or a delivery placed at the request's priority; the reply
carries the result, 0 skipped, started or extended, the override end and the saved tariff; PASS and a record without a
desired tariff are skipped; for no record it is refused; a record CONFIRMED at the override tariff takes the override
fields alone. (That started or extended is one byte, 0 or 1, and that the reply for a skipped record is its count 1
alone, are the model's choice, log entry 22.) -/
def Obligations.OverrideSavesTariff : Prop :=
  ∀ (s : State) (f m : Half) (x y : Byte) (a : Addr) (t : Tariff) (n p : Nat),
    addrOf s.segment f = some a → tariffOf x = some t → minutesOf m = some n → priorityOf y = some p →
    (s.lookup a = none → Refused (.override f x m y) s 0x0E .noSuchEndpoint)
    ∧ (∀ r, s.lookup a = some r → r.cls = .pass ∨ r.desired = none →
        Answered (.override f x m y) s s 0x0E .unchanged [0x01])
    ∧ (∀ r, s.lookup a = some r → r.cls ≠ .pass → r.desired = some t → r.image = .confirmed →
        Completes (.override f x m y) s fun u =>
          let endsAt := s.timebase.uptime + BitVec.ofNat 32 (60 * n)
          (r.override = none →
              u.lookup a = some { r with override := some { saved := t, endsAt := endsAt, priority := p } })
            ∧ (∀ o, r.override = some o →
                u.lookup a = some { r with override := some { saved := o.saved, endsAt := endsAt, priority := p } })
            ∧ OtherRecordsSame a s u ∧ SameElsewhere s u ∧ u.urgent = s.urgent ∧ u.normal = s.normal
            ∧ u.lastPayload = some ([0x01, 0x00, if r.override.isSome then 0x01 else 0x00] ++ bytes4 endsAt
                ++ n1 ((r.override.map (·.saved)).getD t).toNat))
    ∧ ∀ r d, s.lookup a = some r → r.cls ≠ .pass → r.desired = some d →
        ¬(d = t ∧ r.image = .confirmed) →
        let endsAt := s.timebase.uptime + BitVec.ofNat 32 (60 * n)
        let saved := (r.override.map (·.saved)).getD d
        Completes (.override f x m y) s fun u =>
          CoveredAnew a p .request
              { r with
                desired := some t, override := some { saved := saved, endsAt := endsAt, priority := p }
                revision := r.revision + 1, mark := none } s u
            ∧ (∀ r', u.lookup a = some r' → u.lastPayload = some
                ([if r'.image = .pending .inFlight then 0x03 else if r'.image = .pending .ownEntry then 0x02 else 0x04,
                  0x00, if r.override.isSome then 0x01 else 0x00] ++ bytes4 endsAt ++ n1 saved.toNat))
            ∧ (∃ r', u.lookup a = some r' ∧ r'.desired = some t ∧ r'.revision = r.revision + 1 ∧ r'.mark = none
              ∧ r'.isPending = true
              ∧ (r.override = none → r'.override = some
                  { saved := d, endsAt := s.timebase.uptime + BitVec.ofNat 32 (60 * n), priority := p })
              ∧ (∀ o, r.override = some o → r'.override = some
                  { saved := o.saved, endsAt := s.timebase.uptime + BitVec.ofNat 32 (60 * n), priority := p }))
            ∧ OtherRecordsSame a s u ∧ SameElsewhere s u ∧ u.fifo = s.fifo ∧ u.counts = s.counts

/-- OVERRIDE of a group writes the group tariff and, in every eligible member with a desired tariff, the override
fields; without an eligible member it is NO_MEMBERS, with every count 0, and nothing but that tariff and the reply
changes; a member without a desired tariff and a record that is no member are left as they are. A member believed at
the tariff, CONFIRMED or SHARED, takes the override fields alone; to any other the tariff is stated as by SET_GROUP,
and the group's entry is settled as by SET_GROUP. The reply counts the overrides started and extended, the members
skipped, and those changed and unchanged. (The widths of the counts are the model's choice, log entry 22.) -/
def Obligations.GroupOverrideSavesTariffs : Prop :=
  ∀ (s : State) (f m : Half) (x y : Byte) (g : Group) (t : Tariff) (n p : Nat),
    targetGroup f = some g → tariffOf x = some t → minutesOf m = some n → priorityOf y = some p → s.addrs.Nodup →
    Completes (.overrideGroup f x m y) s (fun u =>
      u.groups[g].tariff = some t ∧ u.contexts = s.contexts ∧ u.timebase = s.timebase
        ∧ u.groups = s.groups.set g { s.groups[g] with tariff := some t }
        ∧ (s.members g = [] → ({ u with groups := s.groups, link := s.link } : State) = s
            ∧ u.lastPayload = some ([0x07] ++ n2 0 ++ n2 0 ++ n2 0 ++ n2 0 ++ n2 0))
        ∧ ∀ (a : Addr) (r : Record), s.lookup a = some r →
            (r.eligible g = false ∨ r.desired = none → u.lookup a = some r)
            ∧ ∀ d, r.eligible g = true → r.desired = some d → ∃ r', u.lookup a = some r' ∧ r'.desired = some t
                ∧ (r.override = none → r'.override = some
                    { saved := d, endsAt := s.timebase.uptime + BitVec.ofNat 32 (60 * n), priority := p })
                ∧ (∀ o, r.override = some o → r'.override = some
                    { saved := o.saved, endsAt := s.timebase.uptime + BitVec.ofNat 32 (60 * n), priority := p }))
    ∧ (s.members g ≠ [] →
        let wants := (s.members g).filter fun r => r.desired.isSome
        let believed := fun r : Record => r.desired == some t && (r.image == .confirmed || r.image == .shared)
        let fields := fun r : Record =>
          ({ saved := ((r.override.map (·.saved)).or r.desired).getD t
             endsAt := s.timebase.uptime + BitVec.ofNat 32 (60 * n), priority := p } : Override)
        let started := fun r : Record => { r with override := some (fields r) }
        let stated := fun r : Record =>
          { started r with desired := some t, revision := r.revision + 1, mark := none }
        let changed := wants.filter fun r => !believed r
        Completes (.overrideGroup f x m y) s fun u =>
          SameElsewhere s { u with groups := s.groups } ∧ u.counts = s.counts ∧ u.fifo = s.fifo
            ∧ GroupSettled g p .request ((changed.filter fun r => !r.inFlight).map stated) s u
            ∧ (∀ r ∈ wants, believed r = true → u.lookup r.addr = some (started r))
            ∧ (∀ r ∈ changed, r.inFlight = true → u.lookup r.addr = some { stated r with image := .pending .inFlight })
            ∧ u.lastPayload = u.lastCode.map (· ::
                (n2 (wants.countP fun r => r.override.isNone) ++ n2 (wants.countP fun r => r.override.isSome)
                  ++ n2 ((s.members g).countP fun r => r.desired.isNone) ++ n2 changed.length
                  ++ n2 (wants.countP believed))))

/-- END_OVERRIDE: an endpoint without an override is UNCHANGED, and so is one whose desired tariff is the saved one,
which loses its override alone; else it returns to its saved tariff, PENDING with cover IN_FLIGHT in flight, its own
entry kept or moved, or a delivery placed at the override priority with origin OVERRIDE_END. For a group every record
that lists it loses its override so, in slot order, and every other record is left as it is; the reply counts the
overrides ended, and of the records restored those with cover OWN_ENTRY and those with cover REFRESH. (Which records
these two counts count is the model's choice, log entry 40, the widths of the counts and that NO_MEMBERS carries no
content log entry 22.) -/
def Obligations.EndOverrideRestores : Prop :=
  ∀ (s : State) (f : Half),
    (∀ a r, addrOf s.segment f = some a → s.lookup a = some r → r.override = none →
        Answered (.endOverride f) s s 0x0F .unchanged [])
    ∧ (∀ a r o, addrOf s.segment f = some a → s.lookup a = some r → r.override = some o →
        let restored := { r with desired := some o.saved, override := none, revision := r.revision + 1, mark := none }
        Completes (.endOverride f) s fun u =>
          OtherRecordsSame a s u ∧ SameElsewhere s u ∧ u.counts = s.counts ∧ u.fifo = s.fifo
            ∧ (r.desired = some o.saved →
                u.lookup a = some { r with override := none } ∧ NothingPlaced s u ∧ u.lastPayload = some [0x01])
            ∧ (r.desired ≠ some o.saved → CoveredAnew a o.priority .overrideEnd restored s u
                ∧ ∀ r', u.lookup a = some r' → u.lastPayload = some
                    [if r'.image = .pending .inFlight then 0x03 else if r'.image = .pending .ownEntry then 0x02 else 0x04]))
    ∧ ∀ g, targetGroup f = some g →
        (s.listing g = [] → Answered (.endOverrideGroup f) s s 0x0F .noMembers [])
        ∧ (s.listing g ≠ [] →
          let targets := s.table.filter fun r => r.intended.contains g && r.override.isSome
          let u := (targets.map (·.addr)).foldl State.afterEndOverride s
          let left := fun c : Cover => targets.countP fun r =>
            r.desired != r.override.map (·.saved) && (u.lookup r.addr).any fun r' => r'.image == .pending c
          s.addrs.Nodup →
          Answered (.endOverrideGroup f) s u 0x0F .ok
            (n2 targets.length ++ n1 (left .ownEntry) ++ n2 (left .refresh)))
        ∧ (s.listing g ≠ [] → s.addrs.Nodup →
          Completes (.endOverrideGroup f) s fun u =>
            SameElsewhere s u ∧ u.lastCode = some 0x00
              ∧ ∀ (a : Addr) (r : Record), s.lookup a = some r →
                  (r.intended.contains g = false ∨ r.override = none → u.lookup a = some r)
                  ∧ ∀ o, r.intended.contains g = true → r.override = some o →
                      ∃ r', u.lookup a = some r' ∧ r'.override = none ∧ r'.desired = some o.saved)

/-! ## POLL, PUSH, FORGET -/

/-- POLL places a POLL entry, refused in the order of its table; a PENDING record takes cover OWN_ENTRY and gives up
its mark. -/
def Obligations.PollPlacesEntry : Prop :=
  ∀ (s : State) (f : Half) (y : Byte) (a : Addr) (r : Record) (p : Nat),
    addrOf s.segment f = some a → s.lookup a = some r → priorityOf y = some p →
    (r.cls = .pass → Refused (.poll f y) s 0x10 .badValue)
    ∧ (r.cls ≠ .pass → r.inFlight = true → Refused (.poll f y) s 0x10 .inFlight)
    ∧ (r.cls ≠ .pass → r.inFlight = false → s.ownEntry a ≠ none → Refused (.poll f y) s 0x10 .entryExists)
    ∧ (r.cls ≠ .pass → r.inFlight = false → s.ownEntry a = none → s.hasRoom (queueFor p) = false →
        Answered (.poll f y) s
          { s with counters := { s.counters with queueFull := min (s.counters.queueFull + 1) 65535 } }
          0x10 .queueFull [])
    ∧ (r.cls ≠ .pass → r.inFlight = false → s.ownEntry a = none → s.hasRoom (queueFor p) = true →
        Completes (.poll f y) s fun u =>
          (5 ≤ p → u.urgent = s.urgent ++ [{ work := .poll a, priority := p, origin := .request }]
              ∧ u.normal = s.normal)
            ∧ (p < 5 → u.normal = s.normal ++ [{ work := .poll a, priority := p, origin := .request }]
              ∧ u.urgent = s.urgent)
            ∧ (r.isPending = true → u.lookup a = some { r with image := .pending .ownEntry, mark := none })
            ∧ (r.isPending = false → u.lookup a = some r)
            ∧ OtherRecordsSame a s u ∧ SameElsewhere s u ∧ u.counters = s.counters ∧ u.lastCode = some 0x02)

/-- PUSH gives a REACHABLE record that waits for refresh a DELIVER entry; a LOST one is held; a record that does not
wait for refresh is NOT_PENDING; a full queue is counted and answered. -/
def Obligations.PushGivesEntry : Prop :=
  ∀ (s : State) (f : Half) (y : Byte) (a : Addr) (r : Record) (p : Nat),
    f ≠ 0xFFFF → addrOf s.segment f = some a → s.lookup a = some r → priorityOf y = some p →
    (r.cls = .pass ∨ r.image ≠ .pending .refresh → Refused (.push f y) s 0x11 .notPending)
    ∧ (r.cls ≠ .pass → r.image = .pending .refresh → r.reach = .lost →
        Answered (.push f y) s s 0x11 .heldForRefresh [])
    ∧ (r.cls ≠ .pass → r.image = .pending .refresh → r.reach = .reachable → s.hasRoom (queueFor p) = false →
        Answered (.push f y) s
          { s with counters := { s.counters with queueFull := min (s.counters.queueFull + 1) 65535 } }
          0x11 .queueFull [])
    ∧ (r.cls ≠ .pass → r.image = .pending .refresh → r.reach = .reachable → s.hasRoom (queueFor p) = true →
        Completes (.push f y) s fun u =>
          (5 ≤ p → u.urgent = s.urgent ++ [{ work := .deliver a, priority := p, origin := .request }]
              ∧ u.normal = s.normal)
            ∧ (p < 5 → u.normal = s.normal ++ [{ work := .deliver a, priority := p, origin := .request }]
              ∧ u.urgent = s.urgent)
            ∧ u.lookup a = some { r with image := .pending .ownEntry }
            ∧ OtherRecordsSame a s u ∧ SameElsewhere s u ∧ u.lastCode = some 0x02)

/-- PUSH ALL walks the records that wait for refresh in slot order: the LOST are counted, and the REACHABLE are given a
DELIVER entry at the tail of the queue of the priority, with cover OWN_ENTRY, until that queue is full; those then left
over are remaining, and QUEUE_FULL rises by one when there are any. It is answered OK with the three counts, whose sum
is the number of records that waited, and every other record is left as it is. (The width of the counts, one byte for
the queued and two for the others, is the model's choice, log entry 22.) -/
def Obligations.PushAllWalksTable : Prop :=
  ∀ (s : State) (y : Byte) (p : Nat), priorityOf y = some p → s.addrs.Nodup →
    let k := queueFor p
    let waiting := s.table.filter fun r => r.cls != .pass && r.image == .pending .refresh
    let reachable := waiting.filter fun r => r.reach == .reachable
    let lost := waiting.countP fun r => r.reach == .lost
    let given := reachable.take (k.capacity - (s.queue k).length)
    let remaining := reachable.length - given.length
    ∃ u : State,
      Answered (.pushAll y) s u 0x11 .ok (n1 given.length ++ n2 remaining ++ n2 lost)
        ∧ given.length + remaining + lost = waiting.length
        ∧ SameElsewhere s u ∧ u.counts = s.counts ∧ u.fifo = s.fifo
        ∧ u.queue k
            = s.queue k ++ given.map (fun r => { work := .deliver r.addr, priority := p, origin := .request })
        ∧ (∀ j, j ≠ k → u.queue j = s.queue j)
        ∧ (remaining = 0 → u.counters = s.counters)
        ∧ (0 < remaining → u.hasRoom k = false
            ∧ u.counters = { s.counters with queueFull := min (s.counters.queueFull + 1) 65535 })
        ∧ ∀ (a : Addr) (r : Record), s.lookup a = some r →
            (r ∈ given → u.lookup a = some { r with image := .pending .ownEntry })
            ∧ (r ∉ given → u.lookup a = some r)

/-- FORGET makes an image UNKNOWN, drops the confirmed list, the mark, MISMATCH and the own entries, and orphans a
flight; of a PASS record it drops the confirmed list alone; the reply says whether a transaction was orphaned.
FORGET_ALL forgets so every record that is not PASS and not pinned, orphans their flights, and removes their entries
and every GROUP entry; pinned and PASS records, their entries and their flights, and group frames are left as they are;
the reply counts the records forgotten, the transactions orphaned and the entries removed. (The widths of these counts,
log entry 22, and that a transaction already orphaned is not orphaned again, log entry 38, are the model's choice.) -/
def Obligations.ForgettingDropsBelief : Prop :=
  (∀ (s : State) (f : Half) (a : Addr) (r : Record), addrOf s.segment f = some a → s.lookup a = some r →
      (r.cls ≠ .pass →
        Completes (.forget f) s fun u =>
          u.lookup a = some { r with image := .unknown, confirmed := none, mark := none, mismatch := false }
            ∧ OtherRecordsSame a s u
            ∧ u.urgent = s.urgent.filter (fun e => !e.isFor a) ∧ u.normal = s.normal.filter (fun e => !e.isFor a)
            ∧ u.contexts = s.contexts.map (fun c => if c.job.target? = some a then { c with orphaned := true } else c)
            ∧ SameElsewhere s { u with contexts := s.contexts }
            ∧ u.lastPayload = some
                [0x00, if s.contexts.any (fun c => c.job.target? == some a && !c.orphaned) then 0x01 else 0x00])
      ∧ (r.cls = .pass →
        Completes (.forget f) s fun u =>
          u.lookup a = some { r with confirmed := none } ∧ OtherRecordsSame a s u ∧ SameElsewhere s u
            ∧ u.urgent = s.urgent ∧ u.normal = s.normal ∧ u.lastPayload = some [0x00, 0x00]))
  ∧ ∀ s : State, s.addrs.Nodup →
      let forgotten := s.table.filter fun r => r.cls != .pass && !r.pinned
      let goes := fun e : Entry => e.work.owner.isRight || forgotten.any fun r => e.isFor r.addr
      let isOne := fun c : Context => forgotten.any fun r => c.job.target? == some r.addr
      Completes .forgetAll s fun u =>
        (∀ (a : Addr) (r : Record), s.lookup a = some r →
            (r.cls ≠ .pass → r.pinned = false →
              u.lookup a = some { r with image := .unknown, confirmed := none, mark := none, mismatch := false }
                ∧ u.ownEntry a = none)
            ∧ (r.cls = .pass ∨ r.pinned = true → u.lookup a = some r))
          ∧ (∀ g : Group, u.groupEntry g = none)
          ∧ u.urgent = s.urgent.filter (fun e => !goes e) ∧ u.normal = s.normal.filter (fun e => !goes e)
          ∧ u.contexts = s.contexts.map (fun c => if isOne c then { c with orphaned := true } else c)
          ∧ SameElsewhere s { u with contexts := s.contexts }
          ∧ u.lastPayload = some ([0x00] ++ n2 forgotten.length
              ++ n1 (forgotten.countP fun r => s.contexts.any fun c => c.job.target? == some r.addr && !c.orphaned)
              ++ n1 ((s.urgent ++ s.normal).countP goes))

/-! ## Plan and clock -/

/-- PLAN_ADD with the clock UNSET stores the entry under the lowest free id behind the entries with the same due time
and fires nothing; with a RUNNING clock a due check is made on the plan with the entry in it, and the reply gives the
number of firings, whether the entry is still in the plan, and its due time as it then is (five bytes without a stated
value where it is not, log entry 23; the firings in one byte, log entry 22). A full plan refuses it, and before that a
field out of its range, a tariff or minutes that the action does not take, or the lack of one it takes. PLAN_REMOVE
takes the entry with the id out and changes nothing else; an id above 63 and an id that no entry has are refused. -/
def Obligations.PlanAddAndRemove : Prop :=
  (∀ (s : State) (f : PlanFields) (target : PlanTarget) (action : PlanAction) (p : Nat),
      planTargetOf s.segment f = some target → planActionOf f = some action → priorityOf f.priority = some p →
      f.dueSecond.toNat ≤ 86399 → flagOk f.daily = true → s.timebase.checkDue = false →
      (64 ≤ s.plan.length → Refused (.planAdd f) s 0x14 .planFull)
      ∧ (s.plan.length < 64 → s.timebase.clock = none → s.plan.all (fun e => e.id != freePlanId s.plan) = true →
          let e : PlanEntry :=
            { id := freePlanId s.plan, due := { day := f.dueDay.toNat, second := f.dueSecond.toNat }
              daily := flagSet f.daily, target := target, action := action, priority := p }
          Answered (.planAdd f) s { s with plan := insertPlan e s.plan } 0x14 .ok
            (n1 e.id ++ [0x00, 0x01] ++ bytes2 f.dueDay ++ n3 f.dueSecond.toNat))
      ∧ ∀ now, s.plan.length < 64 → s.timebase.clock = some now → now.second < 86400 → s.planWf →
          s.plan.all (fun e => e.id != freePlanId s.plan) = true →
          let e : PlanEntry :=
            { id := freePlanId s.plan, due := { day := f.dueDay.toNat, second := f.dueSecond.toNat }
              daily := flagSet f.daily, target := target, action := action, priority := p }
          let added := { s with plan := insertPlan e s.plan }
          let firings := added.plan.countP fun x => decide (x.due.stamp ≤ now.stamp)
          let day := if now.second < e.due.second then now.day else now.day + 1
          let answers := fun rest : List Byte =>
            ∃ u, Answered (.planAdd f) s u 0x14 .ok (n1 e.id ++ n1 firings ++ rest) ∧ DueChecked now added u
          (now.stamp < e.due.stamp → answers ([0x01] ++ clockBytes (some e.due)))
          ∧ (e.due.stamp ≤ now.stamp → e.daily = true → day ≤ 65535 →
              answers ([0x01] ++ clockBytes (some { e.due with day := day })))
          ∧ (e.due.stamp ≤ now.stamp → e.daily = false ∨ 65535 < day →
              ∃ rest, rest.length = 5 ∧ answers ([0x00] ++ rest)))
  ∧ (∀ (s : State) (n : Nat), n < freePlanId s.plan → ∃ x ∈ s.plan, x.id = n)
  ∧ (∀ (s : State) (f : PlanFields),
      let count := (f.t2 ++ f.t3).toNat
      86399 < f.dueSecond.toNat ∨ 1 < f.daily.toNat ∨ f.priority.toNat = 0 ∨ 7 < f.priority.toNat
        ∨ 2 < f.form.toNat ∨ 2 < f.action.toNat
        ∨ (f.form = 0 ∧ (addrOf s.segment (f.t0 ++ f.t1) = none ∨ f.t2 ≠ 0 ∨ f.t3 ≠ 0))
        ∨ (f.form = 1 ∧ (31 < f.t0.toNat ∨ f.t1 ≠ 0 ∨ f.t2 ≠ 0 ∨ f.t3 ≠ 0))
        ∨ (f.form = 2 ∧ ((7 < f.t0.toNat ∧ f.t0 ≠ 0xFF) ∨ count = 0 ∨ 256 < count))
        ∨ (f.action = 0 ∧ (15 < f.tariff.toNat ∨ f.minutes ≠ 0xFFFF))
        ∨ (f.action = 1 ∧ (15 < f.tariff.toNat ∨ f.minutes.toNat = 0 ∨ 1440 < f.minutes.toNat))
        ∨ (f.action = 2 ∧ (f.tariff ≠ 0xFF ∨ f.minutes ≠ 0xFFFF)) →
      Refused (.planAdd f) s 0x14 .badValue)
  ∧ ∀ (s : State) (b : Byte),
      (63 < b.toNat → Refused (.planRemove b) s 0x15 .badValue)
      ∧ (b.toNat ≤ 63 → (∀ e ∈ s.plan, e.id ≠ b.toNat) → Refused (.planRemove b) s 0x15 .noSuchEntry)
      ∧ (b.toNat ≤ 63 → (∃ e ∈ s.plan, e.id = b.toNat) →
          Answered (.planRemove b) s { s with plan := s.plan.filter fun e => e.id != b.toNat } 0x15 .ok [])

/-- TIME_SET: a second above 86399 is refused; a backward setting fires nothing; a first or forward one with nothing
due in the plan by the new value fires nothing, and with entries due the due check at the new value is made before the
reply, which gives the direction, the clock before and the number of firings (in one byte, log entry 22); each sets the
clock RUNNING and leaves uptime. -/
def Obligations.TimeSetSetsClock : Prop :=
  ∀ (s : State) (d : Half) (x : BitVec 24), s.timebase.checkDue = false →
    let new : Clock := { day := d.toNat, second := x.toNat }
    let set := { s with timebase := { s.timebase with clock := some new } }
    (86399 < x.toNat → Refused (.timeSet d x) s 0x17 .badValue)
    ∧ (∀ old, x.toNat ≤ 86399 → s.timebase.clock = some old → new.stamp < old.stamp →
        Answered (.timeSet d x) s set 0x17 .ok ([0x02] ++ clockBytes (some old) ++ [0x00]))
    ∧ (∀ old, x.toNat ≤ 86399 → s.timebase.clock = some old → old.stamp ≤ new.stamp →
        (∀ e ∈ s.plan, new.stamp < e.due.stamp) →
        Answered (.timeSet d x) s set 0x17 .ok ([0x01] ++ clockBytes (some old) ++ [0x00]))
    ∧ (x.toNat ≤ 86399 → s.timebase.clock = none → (∀ e ∈ s.plan, new.stamp < e.due.stamp) →
        Answered (.timeSet d x) s set 0x17 .ok [0x00, 0x00, 0x00, 0xFF, 0xFF, 0xFF, 0x00])
    ∧ (x.toNat ≤ 86399 → s.planWf → (∀ old, s.timebase.clock = some old → old.stamp ≤ new.stamp) →
        ∃ u, Answered (.timeSet d x) s u 0x17 .ok
            ([if s.timebase.clock.isNone then 0x00 else 0x01] ++ clockBytes s.timebase.clock
              ++ n1 (s.plan.countP fun e => decide (e.due.stamp ≤ new.stamp)))
          ∧ DueChecked new set u ∧ u.timebase = set.timebase)

/-! ## Refresh, notices, RESTART -/

/-- REFRESH_NOW: outside 1..1023 nothing changes; else B rises by n to at most 1023 and M falls by n to at least 0, in
either mode and whatever the line state, R140 is applied, and the reply gives both; P stays. -/
def Obligations.RefreshNowRaisesBacklog : Prop :=
  ∀ (s : State) (n : Half),
    (n.toNat = 0 ∨ 1023 < n.toNat → Refused (.refreshNow n) s 0x18 .badValue)
    ∧ (1 ≤ n.toNat → n.toNat ≤ 1023 →
      ∃ u, Answered (.refreshNow n) s u 0x18 .ok
            (n2 (min (s.refresh.backlog + n.toNat) 1023) ++ n2 (s.refresh.missed - n.toNat))
        ∧ u.refresh = { s.refresh with
            backlog := min (s.refresh.backlog + n.toNat) 1023
            missed := s.refresh.missed - n.toNat
            backlogLevel := u.refresh.overLimit }
        ∧ u.contexts = s.contexts ∧ u.table = s.table ∧ u.urgent = s.urgent ∧ u.normal = s.normal)

/-- NOTICE_MAP_SET for one endpoint source moves it to its new line, or to none; for ALL it moves the eight of its
kind, and a feeder source whatever the notice group says. Each line it touches is evaluated: in LEVEL mode it is
tested, in EDGE mode its rise is taken; the reply counts the lines and gives their levels. NOTICE_LINE_SET writes the
settings given, keeps those left out, a change to EDGE clears the awaiting flag, and a LEVEL line is tested as it then
stands, so that an unmask is noticed; the reply gives the settings, level and awaiting flag. A kind, notice group,
line, mask, mode or tag out of range is refused. A line whose level rises by a refresh interval, REFRESH_NOW,
CONFIGURE, RETIRE, FORGET, FORGET_ALL, an AMEND that does not change class and notice group together, the end of a
transaction or group frame, a lock or a mains loss is taken in the same way, and no other line changes. A test finds a
cause in an unmasked line whose level is true and which is not awaiting: it becomes awaiting, and a notice with its tag
is placed unless one waits. The rise of an EDGE line places a notice, is merged with MERGED + 1 where one waits, and is
lost where the line is masked. (The order of the lines of one change is the model's choice, log entry 11; what one
change set is, log entry 10; that a boundary left due by the row before is taken first, log entries 4 and 5; widths in
the replies, log entry 22.) -/
def Obligations.NoticeSettings : Prop :=
  ∀ s : State,
    (∀ (k : Fin 6) (n : NoticeGroup) (l : Line),
      Completes (.noticeMapSet (BitVec.ofNat 8 k.val) (BitVec.ofNat 8 n.val) (BitVec.ofNat 8 l.val)) s fun t =>
        t.sourceMap = s.sourceMap.set (Fin.ofNat 50 (k.val * 8 + n.val)) (some l) ∧ t.counts = s.counts
          ∧ t.table = s.table ∧ t.lastCode = some 0x00)
    ∧ (∀ k g l : Byte, 7 < k.toNat → Refused (.noticeMapSet k g l) s 0x19 .badValue)
    ∧ (∀ (l : Line) (masked edge : Bool) (tag : Byte),
      Completes (.noticeLineSet (BitVec.ofNat 8 l.val) (if masked then 1 else 0) (if edge then 1 else 0)
          (tag.setWidth 16)) s fun t =>
        t.lines[l].masked = masked ∧ t.lines[l].edge = edge ∧ t.lines[l].tag = tag
          ∧ (edge = true → t.lines[l].awaiting = false)
          ∧ (edge = false → masked = false → t.lineLevel l = true → t.lines[l].awaiting = true)
          ∧ (∀ k : Line, k ≠ l → t.lines[k] = s.lines[k]) ∧ t.lastCode = some 0x00)
    ∧ (∀ l m e : Byte, ∀ tag : Half, 19 < l.toNat → Refused (.noticeLineSet l m e tag) s 0x1A .badValue)
    ∧ (∀ target : Option Line,
        let line := (target.map fun l => BitVec.ofNat 8 l.val).getD 0xFF
        let moves := fun (kind group : Byte) (sources : SourceId → Bool) =>
          let touched := fun l : Line =>
            target == some l || (List.finRange 50).any fun i => sources i && s.sourceMap[i] == some l
          let risen := fun (t : State) (l : Line) => touched l && !s.lineLevel l && t.lineLevel l
          Completes (.noticeMapSet kind group line) s fun t =>
            (∀ i : SourceId, t.sourceMap[i] = if sources i then target else s.sourceMap[i])
              ∧ t.counts = s.counts ∧ t.table = s.table ∧ t.urgent = s.urgent ∧ t.normal = s.normal
              ∧ SameElsewhere s { t with sourceMap := s.sourceMap }
              ∧ ({ t.counters with merged := s.counters.merged } : Counters) = s.counters
              ∧ LinesTaken (fun l => touched l && !s.lines[l].edge) (fun l => risen t l && s.lines[l].edge) s t
              ∧ t.lastPayload = some ([0x00] ++ n1 ((List.finRange 20).countP touched)
                  ++ ((List.finRange 20).filter touched).map fun l => if t.lineLevel l then 0x01 else 0x00)
        (∀ (k : Fin 6) (n : NoticeGroup), moves (BitVec.ofNat 8 k.val) (BitVec.ofNat 8 n.val)
            fun i => i.val == k.val * 8 + n.val)
        ∧ (∀ k : Fin 6, moves (BitVec.ofNat 8 k.val) 0xFF fun i => i.val / 8 == k.val)
        ∧ ∀ group, moves 6 group (fun i => i.val == 48) ∧ moves 7 group (fun i => i.val == 49))
    ∧ (∀ k g l : Byte, (k.toNat < 6 ∧ 7 < g.toNat ∧ g ≠ 0xFF) ∨ (19 < l.toNat ∧ l ≠ 0xFF) →
        Refused (.noticeMapSet k g l) s 0x19 .badValue)
    ∧ (∀ l m e : Byte, ∀ tag : Half,
        (1 < m.toNat ∧ m ≠ 0xFF) ∨ (1 < e.toNat ∧ e ≠ 0xFF) ∨ (255 < tag.toNat ∧ tag ≠ 0xFFFF) →
        Refused (.noticeLineSet l m e tag) s 0x1A .badValue)
    ∧ (∀ (l : Line) (m e : Byte) (tag : Half), m.toNat ≤ 1 ∨ m = 0xFF → e.toNat ≤ 1 ∨ e = 0xFF →
        tag.toNat ≤ 255 ∨ tag = 0xFFFF →
        Completes (.noticeLineSet (BitVec.ofNat 8 l.val) m e tag) s fun t =>
          t.lines[l].masked = (if m = 0xFF then s.lines[l].masked else m == 1)
            ∧ t.lines[l].edge = (if e = 0xFF then s.lines[l].edge else e == 1)
            ∧ t.lines[l].tag = (if tag = 0xFFFF then s.lines[l].tag else tag.setWidth 8)
            ∧ (t.lines[l].edge = true → t.lines[l].awaiting = false ∧ t.fifo = s.fifo)
            ∧ (t.lines[l].edge = false → t.lines[l].awaiting = (s.lines[l].awaiting
                || (!t.lines[l].masked && t.lineLevel l)))
            ∧ (∀ k : Line, k ≠ l → t.lines[k] = s.lines[k])
            ∧ (let written : NoticeLine :=
                 { masked := t.lines[l].masked, edge := t.lines[l].edge, tag := t.lines[l].tag
                   awaiting := s.lines[l].awaiting && !t.lines[l].edge }
               LinesTaken (fun k => k == l && !t.lines[l].edge) (fun _ => false)
                 { s with lines := s.lines.set l written } t)
            ∧ t.counts = s.counts ∧ t.table = s.table ∧ t.urgent = s.urgent ∧ t.normal = s.normal
            ∧ SameElsewhere s t ∧ t.counters = s.counters
            ∧ t.lastPayload = some
                [0x00, if t.lines[l].masked then 0x01 else 0x00, if t.lines[l].edge then 0x01 else 0x00, t.lines[l].tag
                 , if t.lineLevel l then 0x01 else 0x00, if t.lines[l].awaiting then 0x01 else 0x00])
    ∧ (∀ i : Instr,
        (i = .refreshIntervalExpiry ∨ (∃ n, i = .refreshNow n) ∨ (∃ pairs, i = .configure pairs)
          ∨ (∃ f, i = .retire f ∨ i = .forget f) ∨ i = .forgetAll
          ∨ (∃ f, i = .amend f ∧ (f.cls = 0xFF ∨ f.noticeGroup = 0xFF))
          ∨ (i = .mainsLoss ∧ s.mains.boundaryDue = false)
          ∨ ((i = .transactionEnd ∨ i = .scrubDecision ∨ i = .groupFrameEnd) ∧ s.backlogWf)) →
        Completes i s (ChangeNoticed s))
    ∧ (s.mains.boundaryDue = false → ∀ time : Nat,
        Completes (.zeroCrossing time) s fun t => ChangeNoticed { s with mains := t.mains } t)

/-- NOTICE_DONE: a tag above 255 is refused; a tag no awaiting line has changes nothing; every awaiting line with the
tag is cleared and tested, in line-number order, so that one that is unmasked and whose level still stands is awaiting
again, with a notice unless one waits; the reply counts the lines cleared and those noticed again, and nothing else
changes. (That a line whose notice still waits counts 0 as noticed again is the model's choice, log entry 22.) -/
def Obligations.NoticeDoneClearsAwaiting : Prop :=
  ∀ s : State,
    (∀ tag : Half, 255 < tag.toNat → Refused (.noticeDone tag) s 0x1B .badValue)
    ∧ (∀ tag : Half, tag.toNat < 256 → (∀ l : Line, s.lines[l].awaiting = true → s.lines[l].tag ≠ tag.setWidth 8) →
        Answered (.noticeDone tag) s s 0x1B .ok [0x00, 0x00])
    ∧ (∀ tag : Half, tag.toNat < 256 →
        let acked := fun l : Line => s.lines[l].awaiting && s.lines[l].tag == tag.setWidth 8
        let cleared := { s with
          lines := Vector.ofFn fun l => { s.lines[l] with awaiting := s.lines[l].awaiting && !acked l } }
        Completes (.noticeDone tag) s fun t =>
          LinesTaken acked (fun _ => false) cleared t
            ∧ ({ t with lines := s.lines, fifo := s.fifo, link := s.link } : State) = s
            ∧ t.lastPayload = some ([0x00] ++ n1 ((List.finRange 20).countP acked)
                ++ n1 (t.fifo.length - s.fifo.length)))
    ∧ ∀ (tag : Half) (l : Line), tag.toNat < 256 → s.lines[l].awaiting = true → s.lines[l].tag = tag.setWidth 8 →
        (∀ k : Line, s.lines[k].awaiting = true → s.lines[k].tag = tag.setWidth 8 → k = l) →
        (s.lines[l].masked = true ∨ s.lineLevel l = false →
          Answered (.noticeDone tag) s { s with lines := s.lines.set l { s.lines[l] with awaiting := false } }
            0x1B .ok [0x01, 0x00])
        ∧ (s.lines[l].masked = false → s.lineLevel l = true → s.noticeWaiting l = true →
          Answered (.noticeDone tag) s s 0x1B .ok [0x01, 0x00])
        ∧ (s.lines[l].masked = false → s.lineLevel l = true → s.noticeWaiting l = false →
          Answered (.noticeDone tag) s { s with fifo := s.fifo ++ [{ line := l, tag := s.lines[l].tag }] }
            0x1B .ok [0x01, 0x01])

/-- RESTART: nothing is in flight, the queues are empty, the staged values are active, the reservation is clear, B is 0
with M and P kept, and no record is left PENDING with cover OWN_ENTRY or GROUP(g); what R182 keeps is kept. The
couplers that were held are free by the guard after the boundary that ends the slot in progress (log entry 4 says which
that is where one is due). Every unmasked LEVEL line whose level is true is noticed afresh. A target in flight is
UNKNOWN with its group mark gone, and without a confirmed list where a SET frame was sent, its held tariff kept also
beside a group frame in flight (that the frame is applied first, and so passes the target over, is the model's choice,
log entry 13); a group frame in flight is applied as ended, with cover REFRESH for what it would deliver; every other
record keeps what it has but for a cover by an entry or a group, which becomes REFRESH. -/
def Obligations.RestartQuietsThePart : Prop :=
  (∀ s : State,
    Completes .restart s fun t =>
      t.contexts = [] ∧ t.transmitter = none ∧ t.receivers = Receivers.quiet ∧ t.urgent = [] ∧ t.normal = []
        ∧ t.arbiter.slotHc = { active := s.arbiter.slotHc.staged.getD s.arbiter.slotHc.active, staged := none }
        ∧ t.arbiter.pipeline = { active := s.arbiter.pipeline.staged.getD s.arbiter.pipeline.active, staged := none }
        ∧ t.arbiter.guard = { active := s.arbiter.guard.staged.getD s.arbiter.guard.active, staged := none }
        ∧ t.arbiter.reservation = none ∧ t.arbiter.lineMask = s.arbiter.lineMask
        ∧ t.refresh = { s.refresh with backlog := 0, inFlight := none, backlogLevel := t.refresh.overLimit }
        ∧ (∀ r ∈ t.table, r.image ≠ .pending .ownEntry ∧ ∀ g, r.image ≠ .pending (.group g))
        ∧ t.addrs = s.addrs
        ∧ (∀ n ∈ t.fifo, t.lines[n.line].masked = false ∧ t.lines[n.line].edge = false ∧ t.lineLevel n.line = true)
        ∧ t.mains = s.mains ∧ t.timebase = s.timebase ∧ t.plan = s.plan ∧ t.groups = s.groups
        ∧ t.windows = s.windows ∧ t.segment = s.segment ∧ t.lineSeq = s.lineSeq ∧ t.counts = s.counts
        ∧ t.sourceMap = s.sourceMap ∧ t.attempts = s.attempts ∧ t.lastCode = some 0x00)
  ∧ ∀ s : State,
      let boundary := if s.mains.boundaryDue then s.boundary else s.boundary + 1
      let guard := s.arbiter.guard.staged.getD s.arbiter.guard.active
      let waits := fun i : Image => i = .pending .ownEntry ∨ ∃ h, i = .pending (.group h)
      let target := fun a : Addr => ∃ c ∈ s.contexts, c.job.target? = some a
      Completes .restart s fun t =>
        t.pending = s.pending ∧ t.defaultCoupler = s.defaultCoupler
          ∧ t.link = { s.link with replies := s.link.replies ++ [{ kind := 0x9D, payload := [0x00] }] }
          ∧ (s.backlogWf → t.counters = s.counters)
          ∧ (∀ p : Phase, (∃ c ∈ s.contexts, p ∈ c.coupler.phases) →
              t.arbiter.freeAt p = some (boundary + BitVec.ofNat 32 guard))
          ∧ (∀ p : Phase, (∀ c ∈ s.contexts, p ∉ c.coupler.phases) → t.arbiter.freeAt p = s.arbiter.freeAt p)
          ∧ (∀ l : Line, t.lines[l].masked = s.lines[l].masked ∧ t.lines[l].edge = s.lines[l].edge
              ∧ t.lines[l].tag = s.lines[l].tag
              ∧ t.lines[l].awaiting = (!s.lines[l].masked && !s.lines[l].edge && t.lineLevel l))
          ∧ t.fifo = ((List.finRange 20).filter fun l => t.lines[l].awaiting).map
              (fun l => { line := l, tag := s.lines[l].tag })
          ∧ (∀ a : Addr, s.lookup a = none → t.lookup a = none)
          ∧ (∀ (a : Addr) (r : Record) (c : Context), s.lookup a = some r → r.inFlight = true → c ∈ s.contexts →
              c.job.target? = some a → (∀ d ∈ s.contexts, d.job.target? = some a → d = c) →
              let confirmed := if c.job.sentList.isSome then none else r.confirmed
              (r.cls ≠ .pass → t.lookup a = some { s.afterFlight r with
                confirmed := confirmed, image := .unknown, mark := none })
              ∧ (r.cls = .pass → r.image = .none → r.mark = none →
                  t.lookup a = some { s.afterFlight r with confirmed := confirmed }))
          ∧ (∀ (a : Addr) (r : Record), s.lookup a = some r → ¬target a → (∀ c ∈ s.contexts, c.job.group? = none) →
              (waits r.image → t.lookup a = some { r with image := .pending .refresh, mark := none })
              ∧ (¬waits r.image → t.lookup a = some r))
          ∧ ∀ (c : Context) (g : Group) (tf : Tariff) (n : Fin 4), c ∈ s.contexts → c.job = .group g tf n →
              (∀ d ∈ s.contexts, d.job.group? ≠ none → d = c) → (s.contexts.countP fun d => d == c) = 1 →
              s.addrs.Nodup →
              ∀ (a : Addr) (r : Record), s.lookup a = some r → ¬target a → r.mark = none ∨ r.mark = some c.seq →
                let left := fun (held : Option Tariff) (i : Image) =>
                  t.lookup a = some { r with held := held, image := i, mark := none }
                let kept := fun held : Option Tariff =>
                  (waits r.image → left held (.pending .refresh)) ∧ (¬waits r.image → left held r.image)
                (r.cls = .pass ∨ r.inFlight = true → kept r.held)
                ∧ (r.cls ≠ .pass → r.inFlight = false → r.stores g = true →
                    (r.desired = none ∨ (r.desired = some tf ∧ r.mark = none) → kept (some tf))
                    ∧ (r.desired = some tf → r.mark = some c.seq →
                        left (some tf) (if r.image = .confirmed then .confirmed else .shared))
                    ∧ (∀ d, r.desired = some d → d ≠ tf → left (some tf) (.pending .refresh)))
                ∧ (r.cls ≠ .pass → r.inFlight = false → r.stores g = false →
                    let lost := r.confirmed = none ∧ r.image.believed = true ∧ r.desired ≠ some tf
                    (lost → left r.held .unknown) ∧ (¬lost → kept r.held))

/-! ## Invariants -/

/-- The invariants hold right after reset. -/
def Obligations.ResetKeepsInvariants : Prop :=
  State.reset.queuesWf ∧ State.reset.flightWf ∧ State.reset.gridWf ∧ State.reset.refreshWf ∧ State.reset.backlogWf
    ∧ State.reset.noticeWf ∧ State.reset.noCauseMissed ∧ State.reset.counters.wf ∧ State.reset.tableWf
    ∧ State.reset.countsWf ∧ State.reset.planWf ∧ State.reset.recordsWf

/-- Every step keeps the queues within R85: at most 32 and 128 entries, of priorities 5 to 7 and 1 to 4, with every
priority that may yet place an entry (of a transaction, the refresh, a plan entry, an override) in 1 to 7. -/
def Obligations.StepKeepsQueues : Prop := ∀ s t : State, s.queuesWf → step s = .next t → t.queuesWf

/-- Every step keeps at most two transactions in flight, and none unless the line is UP with its grid. -/
def Obligations.StepKeepsFlights : Prop := ∀ s t : State, s.flightWf → step s = .next t → t.flightWf

/-- Every step keeps the line parameters and the slot grid legal. -/
def Obligations.StepKeepsGrid : Prop := ∀ s t : State, s.gridWf → step s = .next t → t.gridWf

/-- Every step keeps B, M, P and the refresh parameters in their ranges, and REFRESH_BACKLOG at its level. -/
def Obligations.StepKeepsRefresh : Prop :=
  ∀ s t : State, s.refreshWf → s.backlogWf → step s = .next t → t.refreshWf ∧ t.backlogWf

/-- Every step keeps one waiting notice per line at most, awaiting flags on LEVEL lines only, and every unmasked LEVEL
line whose level is true awaiting: no cause is missed. -/
def Obligations.StepMissesNoCause : Prop :=
  ∀ s t : State, s.noticeWf → s.noCauseMissed → step s = .next t → t.noticeWf ∧ t.noCauseMissed

/-- Every step keeps the counters 16-bit, and the plan in order of due time with distinct ids. -/
def Obligations.StepKeepsCountersAndPlan : Prop :=
  (∀ s t : State, s.counters.wf → step s = .next t → t.counters.wf)
  ∧ ∀ s t : State, s.planWf → step s = .next t → t.planWf

/-- Every step keeps the table in slot order with distinct addresses, slots below 960, failure counts up to 15 and at
most 120 records pinned, and the source counts equal to the records they count. Every step keeps records, entries and
flights fitting one another: NONE exactly for PASS, every PENDING record's cover true, at most one own entry for a
record and one queued entry for a group, none for a record in flight, and one transaction for each record in flight.
(That a record disturbed with an own POLL entry is covered by it rests on log entry 16, and the cover that a change to
DEFERRED leaves on log entry 15.) -/
def Obligations.StepKeepsTableAndCounts : Prop :=
  (∀ s t : State, s.tableWf → s.countsWf → step s = .next t → t.tableWf ∧ t.countsWf)
  ∧ ∀ s t : State, s.recordsWf → step s = .next t → t.recordsWf
end

