-- ==== Sys2Proof/Laws/State.lean ====
section
/-! SUPPORT. One lemma per field of State for each named update: what it writes, and what it leaves. -/

namespace Sys2Proof.Machine

/-! ### State.withPending -/

@[simp] theorem withPending_pending (s : State) (l : List Instr) :
    (s.withPending l).pending = l := rfl
@[simp] theorem withPending_mains (s : State) (l : List Instr) : (s.withPending l).mains = s.mains := rfl
@[simp] theorem withPending_timebase (s : State) (l : List Instr) : (s.withPending l).timebase = s.timebase := rfl
@[simp] theorem withPending_transmitter (s : State) (l : List Instr) : (s.withPending l).transmitter = s.transmitter := rfl
@[simp] theorem withPending_receivers (s : State) (l : List Instr) : (s.withPending l).receivers = s.receivers := rfl
@[simp] theorem withPending_table (s : State) (l : List Instr) : (s.withPending l).table = s.table := rfl
@[simp] theorem withPending_windows (s : State) (l : List Instr) : (s.withPending l).windows = s.windows := rfl
@[simp] theorem withPending_groups (s : State) (l : List Instr) : (s.withPending l).groups = s.groups := rfl
@[simp] theorem withPending_urgent (s : State) (l : List Instr) : (s.withPending l).urgent = s.urgent := rfl
@[simp] theorem withPending_normal (s : State) (l : List Instr) : (s.withPending l).normal = s.normal := rfl
@[simp] theorem withPending_arbiter (s : State) (l : List Instr) : (s.withPending l).arbiter = s.arbiter := rfl
@[simp] theorem withPending_contexts (s : State) (l : List Instr) : (s.withPending l).contexts = s.contexts := rfl
@[simp] theorem withPending_lineSeq (s : State) (l : List Instr) : (s.withPending l).lineSeq = s.lineSeq := rfl
@[simp] theorem withPending_attempts (s : State) (l : List Instr) : (s.withPending l).attempts = s.attempts := rfl
@[simp] theorem withPending_refresh (s : State) (l : List Instr) : (s.withPending l).refresh = s.refresh := rfl
@[simp] theorem withPending_plan (s : State) (l : List Instr) : (s.withPending l).plan = s.plan := rfl
@[simp] theorem withPending_counts (s : State) (l : List Instr) : (s.withPending l).counts = s.counts := rfl
@[simp] theorem withPending_sourceMap (s : State) (l : List Instr) : (s.withPending l).sourceMap = s.sourceMap := rfl
@[simp] theorem withPending_lines (s : State) (l : List Instr) : (s.withPending l).lines = s.lines := rfl
@[simp] theorem withPending_fifo (s : State) (l : List Instr) : (s.withPending l).fifo = s.fifo := rfl
@[simp] theorem withPending_link (s : State) (l : List Instr) : (s.withPending l).link = s.link := rfl
@[simp] theorem withPending_segment (s : State) (l : List Instr) : (s.withPending l).segment = s.segment := rfl
@[simp] theorem withPending_defaultCoupler (s : State) (l : List Instr) : (s.withPending l).defaultCoupler = s.defaultCoupler := rfl
@[simp] theorem withPending_counters (s : State) (l : List Instr) : (s.withPending l).counters = s.counters := rfl

/-! ### State.updRecord -/

@[simp] theorem updRecord_pending (s : State) (a : Addr) (f : Record → Record) : (s.updRecord a f).pending = s.pending := rfl
@[simp] theorem updRecord_mains (s : State) (a : Addr) (f : Record → Record) : (s.updRecord a f).mains = s.mains := rfl
@[simp] theorem updRecord_timebase (s : State) (a : Addr) (f : Record → Record) : (s.updRecord a f).timebase = s.timebase := rfl
@[simp] theorem updRecord_transmitter (s : State) (a : Addr) (f : Record → Record) : (s.updRecord a f).transmitter = s.transmitter := rfl
@[simp] theorem updRecord_receivers (s : State) (a : Addr) (f : Record → Record) : (s.updRecord a f).receivers = s.receivers := rfl
@[simp] theorem updRecord_table (s : State) (a : Addr) (f : Record → Record) :
    (s.updRecord a f).table = s.table.map fun r => if r.addr = a then f r else r := rfl
@[simp] theorem updRecord_windows (s : State) (a : Addr) (f : Record → Record) : (s.updRecord a f).windows = s.windows := rfl
@[simp] theorem updRecord_groups (s : State) (a : Addr) (f : Record → Record) : (s.updRecord a f).groups = s.groups := rfl
@[simp] theorem updRecord_urgent (s : State) (a : Addr) (f : Record → Record) : (s.updRecord a f).urgent = s.urgent := rfl
@[simp] theorem updRecord_normal (s : State) (a : Addr) (f : Record → Record) : (s.updRecord a f).normal = s.normal := rfl
@[simp] theorem updRecord_arbiter (s : State) (a : Addr) (f : Record → Record) : (s.updRecord a f).arbiter = s.arbiter := rfl
@[simp] theorem updRecord_contexts (s : State) (a : Addr) (f : Record → Record) : (s.updRecord a f).contexts = s.contexts := rfl
@[simp] theorem updRecord_lineSeq (s : State) (a : Addr) (f : Record → Record) : (s.updRecord a f).lineSeq = s.lineSeq := rfl
@[simp] theorem updRecord_attempts (s : State) (a : Addr) (f : Record → Record) : (s.updRecord a f).attempts = s.attempts := rfl
@[simp] theorem updRecord_refresh (s : State) (a : Addr) (f : Record → Record) : (s.updRecord a f).refresh = s.refresh := rfl
@[simp] theorem updRecord_plan (s : State) (a : Addr) (f : Record → Record) : (s.updRecord a f).plan = s.plan := rfl
@[simp] theorem updRecord_counts (s : State) (a : Addr) (f : Record → Record) : (s.updRecord a f).counts = s.counts := rfl
@[simp] theorem updRecord_sourceMap (s : State) (a : Addr) (f : Record → Record) : (s.updRecord a f).sourceMap = s.sourceMap := rfl
@[simp] theorem updRecord_lines (s : State) (a : Addr) (f : Record → Record) : (s.updRecord a f).lines = s.lines := rfl
@[simp] theorem updRecord_fifo (s : State) (a : Addr) (f : Record → Record) : (s.updRecord a f).fifo = s.fifo := rfl
@[simp] theorem updRecord_link (s : State) (a : Addr) (f : Record → Record) : (s.updRecord a f).link = s.link := rfl
@[simp] theorem updRecord_segment (s : State) (a : Addr) (f : Record → Record) : (s.updRecord a f).segment = s.segment := rfl
@[simp] theorem updRecord_defaultCoupler (s : State) (a : Addr) (f : Record → Record) : (s.updRecord a f).defaultCoupler = s.defaultCoupler := rfl
@[simp] theorem updRecord_counters (s : State) (a : Addr) (f : Record → Record) : (s.updRecord a f).counters = s.counters := rfl

/-! ### State.updAll -/

@[simp] theorem updAll_pending (s : State) (f : Record → Record) : (s.updAll f).pending = s.pending := rfl
@[simp] theorem updAll_mains (s : State) (f : Record → Record) : (s.updAll f).mains = s.mains := rfl
@[simp] theorem updAll_timebase (s : State) (f : Record → Record) : (s.updAll f).timebase = s.timebase := rfl
@[simp] theorem updAll_transmitter (s : State) (f : Record → Record) : (s.updAll f).transmitter = s.transmitter := rfl
@[simp] theorem updAll_receivers (s : State) (f : Record → Record) : (s.updAll f).receivers = s.receivers := rfl
@[simp] theorem updAll_table (s : State) (f : Record → Record) :
    (s.updAll f).table = s.table.map f := rfl
@[simp] theorem updAll_windows (s : State) (f : Record → Record) : (s.updAll f).windows = s.windows := rfl
@[simp] theorem updAll_groups (s : State) (f : Record → Record) : (s.updAll f).groups = s.groups := rfl
@[simp] theorem updAll_urgent (s : State) (f : Record → Record) : (s.updAll f).urgent = s.urgent := rfl
@[simp] theorem updAll_normal (s : State) (f : Record → Record) : (s.updAll f).normal = s.normal := rfl
@[simp] theorem updAll_arbiter (s : State) (f : Record → Record) : (s.updAll f).arbiter = s.arbiter := rfl
@[simp] theorem updAll_contexts (s : State) (f : Record → Record) : (s.updAll f).contexts = s.contexts := rfl
@[simp] theorem updAll_lineSeq (s : State) (f : Record → Record) : (s.updAll f).lineSeq = s.lineSeq := rfl
@[simp] theorem updAll_attempts (s : State) (f : Record → Record) : (s.updAll f).attempts = s.attempts := rfl
@[simp] theorem updAll_refresh (s : State) (f : Record → Record) : (s.updAll f).refresh = s.refresh := rfl
@[simp] theorem updAll_plan (s : State) (f : Record → Record) : (s.updAll f).plan = s.plan := rfl
@[simp] theorem updAll_counts (s : State) (f : Record → Record) : (s.updAll f).counts = s.counts := rfl
@[simp] theorem updAll_sourceMap (s : State) (f : Record → Record) : (s.updAll f).sourceMap = s.sourceMap := rfl
@[simp] theorem updAll_lines (s : State) (f : Record → Record) : (s.updAll f).lines = s.lines := rfl
@[simp] theorem updAll_fifo (s : State) (f : Record → Record) : (s.updAll f).fifo = s.fifo := rfl
@[simp] theorem updAll_link (s : State) (f : Record → Record) : (s.updAll f).link = s.link := rfl
@[simp] theorem updAll_segment (s : State) (f : Record → Record) : (s.updAll f).segment = s.segment := rfl
@[simp] theorem updAll_defaultCoupler (s : State) (f : Record → Record) : (s.updAll f).defaultCoupler = s.defaultCoupler := rfl
@[simp] theorem updAll_counters (s : State) (f : Record → Record) : (s.updAll f).counters = s.counters := rfl

/-! ### State.insertEntry -/

@[simp] theorem insertEntry_pending (s : State) (q : QueueId) (e : Entry) : (s.insertEntry q e).pending = s.pending := by cases q <;> rfl
@[simp] theorem insertEntry_mains (s : State) (q : QueueId) (e : Entry) : (s.insertEntry q e).mains = s.mains := by cases q <;> rfl
@[simp] theorem insertEntry_timebase (s : State) (q : QueueId) (e : Entry) : (s.insertEntry q e).timebase = s.timebase := by cases q <;> rfl
@[simp] theorem insertEntry_transmitter (s : State) (q : QueueId) (e : Entry) : (s.insertEntry q e).transmitter = s.transmitter := by cases q <;> rfl
@[simp] theorem insertEntry_receivers (s : State) (q : QueueId) (e : Entry) : (s.insertEntry q e).receivers = s.receivers := by cases q <;> rfl
@[simp] theorem insertEntry_table (s : State) (q : QueueId) (e : Entry) : (s.insertEntry q e).table = s.table := by cases q <;> rfl
@[simp] theorem insertEntry_windows (s : State) (q : QueueId) (e : Entry) : (s.insertEntry q e).windows = s.windows := by cases q <;> rfl
@[simp] theorem insertEntry_groups (s : State) (q : QueueId) (e : Entry) : (s.insertEntry q e).groups = s.groups := by cases q <;> rfl
@[simp] theorem insertEntry_arbiter (s : State) (q : QueueId) (e : Entry) : (s.insertEntry q e).arbiter = s.arbiter := by cases q <;> rfl
@[simp] theorem insertEntry_contexts (s : State) (q : QueueId) (e : Entry) : (s.insertEntry q e).contexts = s.contexts := by cases q <;> rfl
@[simp] theorem insertEntry_lineSeq (s : State) (q : QueueId) (e : Entry) : (s.insertEntry q e).lineSeq = s.lineSeq := by cases q <;> rfl
@[simp] theorem insertEntry_attempts (s : State) (q : QueueId) (e : Entry) : (s.insertEntry q e).attempts = s.attempts := by cases q <;> rfl
@[simp] theorem insertEntry_refresh (s : State) (q : QueueId) (e : Entry) : (s.insertEntry q e).refresh = s.refresh := by cases q <;> rfl
@[simp] theorem insertEntry_plan (s : State) (q : QueueId) (e : Entry) : (s.insertEntry q e).plan = s.plan := by cases q <;> rfl
@[simp] theorem insertEntry_counts (s : State) (q : QueueId) (e : Entry) : (s.insertEntry q e).counts = s.counts := by cases q <;> rfl
@[simp] theorem insertEntry_sourceMap (s : State) (q : QueueId) (e : Entry) : (s.insertEntry q e).sourceMap = s.sourceMap := by cases q <;> rfl
@[simp] theorem insertEntry_lines (s : State) (q : QueueId) (e : Entry) : (s.insertEntry q e).lines = s.lines := by cases q <;> rfl
@[simp] theorem insertEntry_fifo (s : State) (q : QueueId) (e : Entry) : (s.insertEntry q e).fifo = s.fifo := by cases q <;> rfl
@[simp] theorem insertEntry_link (s : State) (q : QueueId) (e : Entry) : (s.insertEntry q e).link = s.link := by cases q <;> rfl
@[simp] theorem insertEntry_segment (s : State) (q : QueueId) (e : Entry) : (s.insertEntry q e).segment = s.segment := by cases q <;> rfl
@[simp] theorem insertEntry_defaultCoupler (s : State) (q : QueueId) (e : Entry) : (s.insertEntry q e).defaultCoupler = s.defaultCoupler := by cases q <;> rfl
@[simp] theorem insertEntry_counters (s : State) (q : QueueId) (e : Entry) : (s.insertEntry q e).counters = s.counters := by cases q <;> rfl
@[simp] theorem insertEntry_urgent_urgent (s : State) (e : Entry) :
    (s.insertEntry .urgent e).urgent = s.urgent ++ [e] := rfl
@[simp] theorem insertEntry_urgent_normal (s : State) (e : Entry) :
    (s.insertEntry .urgent e).normal = s.normal := rfl
@[simp] theorem insertEntry_normal_urgent (s : State) (e : Entry) :
    (s.insertEntry .normal e).urgent = s.urgent := rfl
@[simp] theorem insertEntry_normal_normal (s : State) (e : Entry) :
    (s.insertEntry .normal e).normal = s.normal ++ [e] := rfl

/-! ### State.setQueue -/

@[simp] theorem setQueue_pending (s : State) (q : QueueId) (l : List Entry) : (s.setQueue q l).pending = s.pending := by cases q <;> rfl
@[simp] theorem setQueue_mains (s : State) (q : QueueId) (l : List Entry) : (s.setQueue q l).mains = s.mains := by cases q <;> rfl
@[simp] theorem setQueue_timebase (s : State) (q : QueueId) (l : List Entry) : (s.setQueue q l).timebase = s.timebase := by cases q <;> rfl
@[simp] theorem setQueue_transmitter (s : State) (q : QueueId) (l : List Entry) : (s.setQueue q l).transmitter = s.transmitter := by cases q <;> rfl
@[simp] theorem setQueue_receivers (s : State) (q : QueueId) (l : List Entry) : (s.setQueue q l).receivers = s.receivers := by cases q <;> rfl
@[simp] theorem setQueue_table (s : State) (q : QueueId) (l : List Entry) : (s.setQueue q l).table = s.table := by cases q <;> rfl
@[simp] theorem setQueue_windows (s : State) (q : QueueId) (l : List Entry) : (s.setQueue q l).windows = s.windows := by cases q <;> rfl
@[simp] theorem setQueue_groups (s : State) (q : QueueId) (l : List Entry) : (s.setQueue q l).groups = s.groups := by cases q <;> rfl
@[simp] theorem setQueue_arbiter (s : State) (q : QueueId) (l : List Entry) : (s.setQueue q l).arbiter = s.arbiter := by cases q <;> rfl
@[simp] theorem setQueue_contexts (s : State) (q : QueueId) (l : List Entry) : (s.setQueue q l).contexts = s.contexts := by cases q <;> rfl
@[simp] theorem setQueue_lineSeq (s : State) (q : QueueId) (l : List Entry) : (s.setQueue q l).lineSeq = s.lineSeq := by cases q <;> rfl
@[simp] theorem setQueue_attempts (s : State) (q : QueueId) (l : List Entry) : (s.setQueue q l).attempts = s.attempts := by cases q <;> rfl
@[simp] theorem setQueue_refresh (s : State) (q : QueueId) (l : List Entry) : (s.setQueue q l).refresh = s.refresh := by cases q <;> rfl
@[simp] theorem setQueue_plan (s : State) (q : QueueId) (l : List Entry) : (s.setQueue q l).plan = s.plan := by cases q <;> rfl
@[simp] theorem setQueue_counts (s : State) (q : QueueId) (l : List Entry) : (s.setQueue q l).counts = s.counts := by cases q <;> rfl
@[simp] theorem setQueue_sourceMap (s : State) (q : QueueId) (l : List Entry) : (s.setQueue q l).sourceMap = s.sourceMap := by cases q <;> rfl
@[simp] theorem setQueue_lines (s : State) (q : QueueId) (l : List Entry) : (s.setQueue q l).lines = s.lines := by cases q <;> rfl
@[simp] theorem setQueue_fifo (s : State) (q : QueueId) (l : List Entry) : (s.setQueue q l).fifo = s.fifo := by cases q <;> rfl
@[simp] theorem setQueue_link (s : State) (q : QueueId) (l : List Entry) : (s.setQueue q l).link = s.link := by cases q <;> rfl
@[simp] theorem setQueue_segment (s : State) (q : QueueId) (l : List Entry) : (s.setQueue q l).segment = s.segment := by cases q <;> rfl
@[simp] theorem setQueue_defaultCoupler (s : State) (q : QueueId) (l : List Entry) : (s.setQueue q l).defaultCoupler = s.defaultCoupler := by cases q <;> rfl
@[simp] theorem setQueue_counters (s : State) (q : QueueId) (l : List Entry) : (s.setQueue q l).counters = s.counters := by cases q <;> rfl
@[simp] theorem setQueue_urgent_urgent (s : State) (l : List Entry) : (s.setQueue .urgent l).urgent = l := rfl
@[simp] theorem setQueue_urgent_normal (s : State) (l : List Entry) :
    (s.setQueue .urgent l).normal = s.normal := rfl
@[simp] theorem setQueue_normal_urgent (s : State) (l : List Entry) :
    (s.setQueue .normal l).urgent = s.urgent := rfl
@[simp] theorem setQueue_normal_normal (s : State) (l : List Entry) : (s.setQueue .normal l).normal = l := rfl

/-! ### State.dropEntries -/

@[simp] theorem dropEntries_pending (s : State) (p : Entry → Bool) : (s.dropEntries p).pending = s.pending := rfl
@[simp] theorem dropEntries_mains (s : State) (p : Entry → Bool) : (s.dropEntries p).mains = s.mains := rfl
@[simp] theorem dropEntries_timebase (s : State) (p : Entry → Bool) : (s.dropEntries p).timebase = s.timebase := rfl
@[simp] theorem dropEntries_transmitter (s : State) (p : Entry → Bool) : (s.dropEntries p).transmitter = s.transmitter := rfl
@[simp] theorem dropEntries_receivers (s : State) (p : Entry → Bool) : (s.dropEntries p).receivers = s.receivers := rfl
@[simp] theorem dropEntries_table (s : State) (p : Entry → Bool) : (s.dropEntries p).table = s.table := rfl
@[simp] theorem dropEntries_windows (s : State) (p : Entry → Bool) : (s.dropEntries p).windows = s.windows := rfl
@[simp] theorem dropEntries_groups (s : State) (p : Entry → Bool) : (s.dropEntries p).groups = s.groups := rfl
@[simp] theorem dropEntries_urgent (s : State) (p : Entry → Bool) :
    (s.dropEntries p).urgent = s.urgent.filter fun e => !p e := rfl
@[simp] theorem dropEntries_normal (s : State) (p : Entry → Bool) :
    (s.dropEntries p).normal = s.normal.filter fun e => !p e := rfl
@[simp] theorem dropEntries_arbiter (s : State) (p : Entry → Bool) : (s.dropEntries p).arbiter = s.arbiter := rfl
@[simp] theorem dropEntries_contexts (s : State) (p : Entry → Bool) : (s.dropEntries p).contexts = s.contexts := rfl
@[simp] theorem dropEntries_lineSeq (s : State) (p : Entry → Bool) : (s.dropEntries p).lineSeq = s.lineSeq := rfl
@[simp] theorem dropEntries_attempts (s : State) (p : Entry → Bool) : (s.dropEntries p).attempts = s.attempts := rfl
@[simp] theorem dropEntries_refresh (s : State) (p : Entry → Bool) : (s.dropEntries p).refresh = s.refresh := rfl
@[simp] theorem dropEntries_plan (s : State) (p : Entry → Bool) : (s.dropEntries p).plan = s.plan := rfl
@[simp] theorem dropEntries_counts (s : State) (p : Entry → Bool) : (s.dropEntries p).counts = s.counts := rfl
@[simp] theorem dropEntries_sourceMap (s : State) (p : Entry → Bool) : (s.dropEntries p).sourceMap = s.sourceMap := rfl
@[simp] theorem dropEntries_lines (s : State) (p : Entry → Bool) : (s.dropEntries p).lines = s.lines := rfl
@[simp] theorem dropEntries_fifo (s : State) (p : Entry → Bool) : (s.dropEntries p).fifo = s.fifo := rfl
@[simp] theorem dropEntries_link (s : State) (p : Entry → Bool) : (s.dropEntries p).link = s.link := rfl
@[simp] theorem dropEntries_segment (s : State) (p : Entry → Bool) : (s.dropEntries p).segment = s.segment := rfl
@[simp] theorem dropEntries_defaultCoupler (s : State) (p : Entry → Bool) : (s.dropEntries p).defaultCoupler = s.defaultCoupler := rfl
@[simp] theorem dropEntries_counters (s : State) (p : Entry → Bool) : (s.dropEntries p).counters = s.counters := rfl

/-! ### State.countQueueFull -/

@[simp] theorem countQueueFull_pending (s : State) : (s.countQueueFull).pending = s.pending := rfl
@[simp] theorem countQueueFull_mains (s : State) : (s.countQueueFull).mains = s.mains := rfl
@[simp] theorem countQueueFull_timebase (s : State) : (s.countQueueFull).timebase = s.timebase := rfl
@[simp] theorem countQueueFull_transmitter (s : State) : (s.countQueueFull).transmitter = s.transmitter := rfl
@[simp] theorem countQueueFull_receivers (s : State) : (s.countQueueFull).receivers = s.receivers := rfl
@[simp] theorem countQueueFull_table (s : State) : (s.countQueueFull).table = s.table := rfl
@[simp] theorem countQueueFull_windows (s : State) : (s.countQueueFull).windows = s.windows := rfl
@[simp] theorem countQueueFull_groups (s : State) : (s.countQueueFull).groups = s.groups := rfl
@[simp] theorem countQueueFull_urgent (s : State) : (s.countQueueFull).urgent = s.urgent := rfl
@[simp] theorem countQueueFull_normal (s : State) : (s.countQueueFull).normal = s.normal := rfl
@[simp] theorem countQueueFull_arbiter (s : State) : (s.countQueueFull).arbiter = s.arbiter := rfl
@[simp] theorem countQueueFull_contexts (s : State) : (s.countQueueFull).contexts = s.contexts := rfl
@[simp] theorem countQueueFull_lineSeq (s : State) : (s.countQueueFull).lineSeq = s.lineSeq := rfl
@[simp] theorem countQueueFull_attempts (s : State) : (s.countQueueFull).attempts = s.attempts := rfl
@[simp] theorem countQueueFull_refresh (s : State) : (s.countQueueFull).refresh = s.refresh := rfl
@[simp] theorem countQueueFull_plan (s : State) : (s.countQueueFull).plan = s.plan := rfl
@[simp] theorem countQueueFull_counts (s : State) : (s.countQueueFull).counts = s.counts := rfl
@[simp] theorem countQueueFull_sourceMap (s : State) : (s.countQueueFull).sourceMap = s.sourceMap := rfl
@[simp] theorem countQueueFull_lines (s : State) : (s.countQueueFull).lines = s.lines := rfl
@[simp] theorem countQueueFull_fifo (s : State) : (s.countQueueFull).fifo = s.fifo := rfl
@[simp] theorem countQueueFull_link (s : State) : (s.countQueueFull).link = s.link := rfl
@[simp] theorem countQueueFull_segment (s : State) : (s.countQueueFull).segment = s.segment := rfl
@[simp] theorem countQueueFull_defaultCoupler (s : State) : (s.countQueueFull).defaultCoupler = s.defaultCoupler := rfl
@[simp] theorem countQueueFull_counters (s : State) :
    (s.countQueueFull).counters = { s.counters with queueFull := bump s.counters.queueFull } := rfl

/-! ### State.countStranded -/

@[simp] theorem countStranded_pending (s : State) : (s.countStranded).pending = s.pending := rfl
@[simp] theorem countStranded_mains (s : State) : (s.countStranded).mains = s.mains := rfl
@[simp] theorem countStranded_timebase (s : State) : (s.countStranded).timebase = s.timebase := rfl
@[simp] theorem countStranded_transmitter (s : State) : (s.countStranded).transmitter = s.transmitter := rfl
@[simp] theorem countStranded_receivers (s : State) : (s.countStranded).receivers = s.receivers := rfl
@[simp] theorem countStranded_table (s : State) : (s.countStranded).table = s.table := rfl
@[simp] theorem countStranded_windows (s : State) : (s.countStranded).windows = s.windows := rfl
@[simp] theorem countStranded_groups (s : State) : (s.countStranded).groups = s.groups := rfl
@[simp] theorem countStranded_urgent (s : State) : (s.countStranded).urgent = s.urgent := rfl
@[simp] theorem countStranded_normal (s : State) : (s.countStranded).normal = s.normal := rfl
@[simp] theorem countStranded_arbiter (s : State) : (s.countStranded).arbiter = s.arbiter := rfl
@[simp] theorem countStranded_contexts (s : State) : (s.countStranded).contexts = s.contexts := rfl
@[simp] theorem countStranded_lineSeq (s : State) : (s.countStranded).lineSeq = s.lineSeq := rfl
@[simp] theorem countStranded_attempts (s : State) : (s.countStranded).attempts = s.attempts := rfl
@[simp] theorem countStranded_refresh (s : State) : (s.countStranded).refresh = s.refresh := rfl
@[simp] theorem countStranded_plan (s : State) : (s.countStranded).plan = s.plan := rfl
@[simp] theorem countStranded_counts (s : State) : (s.countStranded).counts = s.counts := rfl
@[simp] theorem countStranded_sourceMap (s : State) : (s.countStranded).sourceMap = s.sourceMap := rfl
@[simp] theorem countStranded_lines (s : State) : (s.countStranded).lines = s.lines := rfl
@[simp] theorem countStranded_fifo (s : State) : (s.countStranded).fifo = s.fifo := rfl
@[simp] theorem countStranded_link (s : State) : (s.countStranded).link = s.link := rfl
@[simp] theorem countStranded_segment (s : State) : (s.countStranded).segment = s.segment := rfl
@[simp] theorem countStranded_defaultCoupler (s : State) : (s.countStranded).defaultCoupler = s.defaultCoupler := rfl
@[simp] theorem countStranded_counters (s : State) :
    (s.countStranded).counters = { s.counters with stranded := bump s.counters.stranded } := rfl

/-! ### State.countPlanMiss -/

@[simp] theorem countPlanMiss_pending (s : State) : (s.countPlanMiss).pending = s.pending := rfl
@[simp] theorem countPlanMiss_mains (s : State) : (s.countPlanMiss).mains = s.mains := rfl
@[simp] theorem countPlanMiss_timebase (s : State) : (s.countPlanMiss).timebase = s.timebase := rfl
@[simp] theorem countPlanMiss_transmitter (s : State) : (s.countPlanMiss).transmitter = s.transmitter := rfl
@[simp] theorem countPlanMiss_receivers (s : State) : (s.countPlanMiss).receivers = s.receivers := rfl
@[simp] theorem countPlanMiss_table (s : State) : (s.countPlanMiss).table = s.table := rfl
@[simp] theorem countPlanMiss_windows (s : State) : (s.countPlanMiss).windows = s.windows := rfl
@[simp] theorem countPlanMiss_groups (s : State) : (s.countPlanMiss).groups = s.groups := rfl
@[simp] theorem countPlanMiss_urgent (s : State) : (s.countPlanMiss).urgent = s.urgent := rfl
@[simp] theorem countPlanMiss_normal (s : State) : (s.countPlanMiss).normal = s.normal := rfl
@[simp] theorem countPlanMiss_arbiter (s : State) : (s.countPlanMiss).arbiter = s.arbiter := rfl
@[simp] theorem countPlanMiss_contexts (s : State) : (s.countPlanMiss).contexts = s.contexts := rfl
@[simp] theorem countPlanMiss_lineSeq (s : State) : (s.countPlanMiss).lineSeq = s.lineSeq := rfl
@[simp] theorem countPlanMiss_attempts (s : State) : (s.countPlanMiss).attempts = s.attempts := rfl
@[simp] theorem countPlanMiss_refresh (s : State) : (s.countPlanMiss).refresh = s.refresh := rfl
@[simp] theorem countPlanMiss_plan (s : State) : (s.countPlanMiss).plan = s.plan := rfl
@[simp] theorem countPlanMiss_counts (s : State) : (s.countPlanMiss).counts = s.counts := rfl
@[simp] theorem countPlanMiss_sourceMap (s : State) : (s.countPlanMiss).sourceMap = s.sourceMap := rfl
@[simp] theorem countPlanMiss_lines (s : State) : (s.countPlanMiss).lines = s.lines := rfl
@[simp] theorem countPlanMiss_fifo (s : State) : (s.countPlanMiss).fifo = s.fifo := rfl
@[simp] theorem countPlanMiss_link (s : State) : (s.countPlanMiss).link = s.link := rfl
@[simp] theorem countPlanMiss_segment (s : State) : (s.countPlanMiss).segment = s.segment := rfl
@[simp] theorem countPlanMiss_defaultCoupler (s : State) : (s.countPlanMiss).defaultCoupler = s.defaultCoupler := rfl
@[simp] theorem countPlanMiss_counters (s : State) :
    (s.countPlanMiss).counters = { s.counters with planMiss := bump s.counters.planMiss } := rfl

/-! ### State.countMerged -/

@[simp] theorem countMerged_pending (s : State) : (s.countMerged).pending = s.pending := rfl
@[simp] theorem countMerged_mains (s : State) : (s.countMerged).mains = s.mains := rfl
@[simp] theorem countMerged_timebase (s : State) : (s.countMerged).timebase = s.timebase := rfl
@[simp] theorem countMerged_transmitter (s : State) : (s.countMerged).transmitter = s.transmitter := rfl
@[simp] theorem countMerged_receivers (s : State) : (s.countMerged).receivers = s.receivers := rfl
@[simp] theorem countMerged_table (s : State) : (s.countMerged).table = s.table := rfl
@[simp] theorem countMerged_windows (s : State) : (s.countMerged).windows = s.windows := rfl
@[simp] theorem countMerged_groups (s : State) : (s.countMerged).groups = s.groups := rfl
@[simp] theorem countMerged_urgent (s : State) : (s.countMerged).urgent = s.urgent := rfl
@[simp] theorem countMerged_normal (s : State) : (s.countMerged).normal = s.normal := rfl
@[simp] theorem countMerged_arbiter (s : State) : (s.countMerged).arbiter = s.arbiter := rfl
@[simp] theorem countMerged_contexts (s : State) : (s.countMerged).contexts = s.contexts := rfl
@[simp] theorem countMerged_lineSeq (s : State) : (s.countMerged).lineSeq = s.lineSeq := rfl
@[simp] theorem countMerged_attempts (s : State) : (s.countMerged).attempts = s.attempts := rfl
@[simp] theorem countMerged_refresh (s : State) : (s.countMerged).refresh = s.refresh := rfl
@[simp] theorem countMerged_plan (s : State) : (s.countMerged).plan = s.plan := rfl
@[simp] theorem countMerged_counts (s : State) : (s.countMerged).counts = s.counts := rfl
@[simp] theorem countMerged_sourceMap (s : State) : (s.countMerged).sourceMap = s.sourceMap := rfl
@[simp] theorem countMerged_lines (s : State) : (s.countMerged).lines = s.lines := rfl
@[simp] theorem countMerged_fifo (s : State) : (s.countMerged).fifo = s.fifo := rfl
@[simp] theorem countMerged_link (s : State) : (s.countMerged).link = s.link := rfl
@[simp] theorem countMerged_segment (s : State) : (s.countMerged).segment = s.segment := rfl
@[simp] theorem countMerged_defaultCoupler (s : State) : (s.countMerged).defaultCoupler = s.defaultCoupler := rfl
@[simp] theorem countMerged_counters (s : State) :
    (s.countMerged).counters = { s.counters with merged := bump s.counters.merged } := rfl

/-! ### State.countStale -/

@[simp] theorem countStale_pending (s : State) : (s.countStale).pending = s.pending := rfl
@[simp] theorem countStale_mains (s : State) : (s.countStale).mains = s.mains := rfl
@[simp] theorem countStale_timebase (s : State) : (s.countStale).timebase = s.timebase := rfl
@[simp] theorem countStale_transmitter (s : State) : (s.countStale).transmitter = s.transmitter := rfl
@[simp] theorem countStale_receivers (s : State) : (s.countStale).receivers = s.receivers := rfl
@[simp] theorem countStale_table (s : State) : (s.countStale).table = s.table := rfl
@[simp] theorem countStale_windows (s : State) : (s.countStale).windows = s.windows := rfl
@[simp] theorem countStale_groups (s : State) : (s.countStale).groups = s.groups := rfl
@[simp] theorem countStale_urgent (s : State) : (s.countStale).urgent = s.urgent := rfl
@[simp] theorem countStale_normal (s : State) : (s.countStale).normal = s.normal := rfl
@[simp] theorem countStale_arbiter (s : State) : (s.countStale).arbiter = s.arbiter := rfl
@[simp] theorem countStale_contexts (s : State) : (s.countStale).contexts = s.contexts := rfl
@[simp] theorem countStale_lineSeq (s : State) : (s.countStale).lineSeq = s.lineSeq := rfl
@[simp] theorem countStale_attempts (s : State) : (s.countStale).attempts = s.attempts := rfl
@[simp] theorem countStale_refresh (s : State) : (s.countStale).refresh = s.refresh := rfl
@[simp] theorem countStale_plan (s : State) : (s.countStale).plan = s.plan := rfl
@[simp] theorem countStale_counts (s : State) : (s.countStale).counts = s.counts := rfl
@[simp] theorem countStale_sourceMap (s : State) : (s.countStale).sourceMap = s.sourceMap := rfl
@[simp] theorem countStale_lines (s : State) : (s.countStale).lines = s.lines := rfl
@[simp] theorem countStale_fifo (s : State) : (s.countStale).fifo = s.fifo := rfl
@[simp] theorem countStale_link (s : State) : (s.countStale).link = s.link := rfl
@[simp] theorem countStale_segment (s : State) : (s.countStale).segment = s.segment := rfl
@[simp] theorem countStale_defaultCoupler (s : State) : (s.countStale).defaultCoupler = s.defaultCoupler := rfl
@[simp] theorem countStale_counters (s : State) :
    (s.countStale).counters = { s.counters with stale := bump s.counters.stale } := rfl

/-! ### State.countLinkCrc -/

@[simp] theorem countLinkCrc_pending (s : State) : (s.countLinkCrc).pending = s.pending := rfl
@[simp] theorem countLinkCrc_mains (s : State) : (s.countLinkCrc).mains = s.mains := rfl
@[simp] theorem countLinkCrc_timebase (s : State) : (s.countLinkCrc).timebase = s.timebase := rfl
@[simp] theorem countLinkCrc_transmitter (s : State) : (s.countLinkCrc).transmitter = s.transmitter := rfl
@[simp] theorem countLinkCrc_receivers (s : State) : (s.countLinkCrc).receivers = s.receivers := rfl
@[simp] theorem countLinkCrc_table (s : State) : (s.countLinkCrc).table = s.table := rfl
@[simp] theorem countLinkCrc_windows (s : State) : (s.countLinkCrc).windows = s.windows := rfl
@[simp] theorem countLinkCrc_groups (s : State) : (s.countLinkCrc).groups = s.groups := rfl
@[simp] theorem countLinkCrc_urgent (s : State) : (s.countLinkCrc).urgent = s.urgent := rfl
@[simp] theorem countLinkCrc_normal (s : State) : (s.countLinkCrc).normal = s.normal := rfl
@[simp] theorem countLinkCrc_arbiter (s : State) : (s.countLinkCrc).arbiter = s.arbiter := rfl
@[simp] theorem countLinkCrc_contexts (s : State) : (s.countLinkCrc).contexts = s.contexts := rfl
@[simp] theorem countLinkCrc_lineSeq (s : State) : (s.countLinkCrc).lineSeq = s.lineSeq := rfl
@[simp] theorem countLinkCrc_attempts (s : State) : (s.countLinkCrc).attempts = s.attempts := rfl
@[simp] theorem countLinkCrc_refresh (s : State) : (s.countLinkCrc).refresh = s.refresh := rfl
@[simp] theorem countLinkCrc_plan (s : State) : (s.countLinkCrc).plan = s.plan := rfl
@[simp] theorem countLinkCrc_counts (s : State) : (s.countLinkCrc).counts = s.counts := rfl
@[simp] theorem countLinkCrc_sourceMap (s : State) : (s.countLinkCrc).sourceMap = s.sourceMap := rfl
@[simp] theorem countLinkCrc_lines (s : State) : (s.countLinkCrc).lines = s.lines := rfl
@[simp] theorem countLinkCrc_fifo (s : State) : (s.countLinkCrc).fifo = s.fifo := rfl
@[simp] theorem countLinkCrc_link (s : State) : (s.countLinkCrc).link = s.link := rfl
@[simp] theorem countLinkCrc_segment (s : State) : (s.countLinkCrc).segment = s.segment := rfl
@[simp] theorem countLinkCrc_defaultCoupler (s : State) : (s.countLinkCrc).defaultCoupler = s.defaultCoupler := rfl
@[simp] theorem countLinkCrc_counters (s : State) :
    (s.countLinkCrc).counters = { s.counters with linkCrc := bump s.counters.linkCrc } := rfl

/-! ### State.countLinkGap -/

@[simp] theorem countLinkGap_pending (s : State) : (s.countLinkGap).pending = s.pending := rfl
@[simp] theorem countLinkGap_mains (s : State) : (s.countLinkGap).mains = s.mains := rfl
@[simp] theorem countLinkGap_timebase (s : State) : (s.countLinkGap).timebase = s.timebase := rfl
@[simp] theorem countLinkGap_transmitter (s : State) : (s.countLinkGap).transmitter = s.transmitter := rfl
@[simp] theorem countLinkGap_receivers (s : State) : (s.countLinkGap).receivers = s.receivers := rfl
@[simp] theorem countLinkGap_table (s : State) : (s.countLinkGap).table = s.table := rfl
@[simp] theorem countLinkGap_windows (s : State) : (s.countLinkGap).windows = s.windows := rfl
@[simp] theorem countLinkGap_groups (s : State) : (s.countLinkGap).groups = s.groups := rfl
@[simp] theorem countLinkGap_urgent (s : State) : (s.countLinkGap).urgent = s.urgent := rfl
@[simp] theorem countLinkGap_normal (s : State) : (s.countLinkGap).normal = s.normal := rfl
@[simp] theorem countLinkGap_arbiter (s : State) : (s.countLinkGap).arbiter = s.arbiter := rfl
@[simp] theorem countLinkGap_contexts (s : State) : (s.countLinkGap).contexts = s.contexts := rfl
@[simp] theorem countLinkGap_lineSeq (s : State) : (s.countLinkGap).lineSeq = s.lineSeq := rfl
@[simp] theorem countLinkGap_attempts (s : State) : (s.countLinkGap).attempts = s.attempts := rfl
@[simp] theorem countLinkGap_refresh (s : State) : (s.countLinkGap).refresh = s.refresh := rfl
@[simp] theorem countLinkGap_plan (s : State) : (s.countLinkGap).plan = s.plan := rfl
@[simp] theorem countLinkGap_counts (s : State) : (s.countLinkGap).counts = s.counts := rfl
@[simp] theorem countLinkGap_sourceMap (s : State) : (s.countLinkGap).sourceMap = s.sourceMap := rfl
@[simp] theorem countLinkGap_lines (s : State) : (s.countLinkGap).lines = s.lines := rfl
@[simp] theorem countLinkGap_fifo (s : State) : (s.countLinkGap).fifo = s.fifo := rfl
@[simp] theorem countLinkGap_link (s : State) : (s.countLinkGap).link = s.link := rfl
@[simp] theorem countLinkGap_segment (s : State) : (s.countLinkGap).segment = s.segment := rfl
@[simp] theorem countLinkGap_defaultCoupler (s : State) : (s.countLinkGap).defaultCoupler = s.defaultCoupler := rfl
@[simp] theorem countLinkGap_counters (s : State) :
    (s.countLinkGap).counters = { s.counters with linkGap := bump s.counters.linkGap } := rfl

/-! ### State.countLinkOverrun -/

@[simp] theorem countLinkOverrun_pending (s : State) : (s.countLinkOverrun).pending = s.pending := rfl
@[simp] theorem countLinkOverrun_mains (s : State) : (s.countLinkOverrun).mains = s.mains := rfl
@[simp] theorem countLinkOverrun_timebase (s : State) : (s.countLinkOverrun).timebase = s.timebase := rfl
@[simp] theorem countLinkOverrun_transmitter (s : State) : (s.countLinkOverrun).transmitter = s.transmitter := rfl
@[simp] theorem countLinkOverrun_receivers (s : State) : (s.countLinkOverrun).receivers = s.receivers := rfl
@[simp] theorem countLinkOverrun_table (s : State) : (s.countLinkOverrun).table = s.table := rfl
@[simp] theorem countLinkOverrun_windows (s : State) : (s.countLinkOverrun).windows = s.windows := rfl
@[simp] theorem countLinkOverrun_groups (s : State) : (s.countLinkOverrun).groups = s.groups := rfl
@[simp] theorem countLinkOverrun_urgent (s : State) : (s.countLinkOverrun).urgent = s.urgent := rfl
@[simp] theorem countLinkOverrun_normal (s : State) : (s.countLinkOverrun).normal = s.normal := rfl
@[simp] theorem countLinkOverrun_arbiter (s : State) : (s.countLinkOverrun).arbiter = s.arbiter := rfl
@[simp] theorem countLinkOverrun_contexts (s : State) : (s.countLinkOverrun).contexts = s.contexts := rfl
@[simp] theorem countLinkOverrun_lineSeq (s : State) : (s.countLinkOverrun).lineSeq = s.lineSeq := rfl
@[simp] theorem countLinkOverrun_attempts (s : State) : (s.countLinkOverrun).attempts = s.attempts := rfl
@[simp] theorem countLinkOverrun_refresh (s : State) : (s.countLinkOverrun).refresh = s.refresh := rfl
@[simp] theorem countLinkOverrun_plan (s : State) : (s.countLinkOverrun).plan = s.plan := rfl
@[simp] theorem countLinkOverrun_counts (s : State) : (s.countLinkOverrun).counts = s.counts := rfl
@[simp] theorem countLinkOverrun_sourceMap (s : State) : (s.countLinkOverrun).sourceMap = s.sourceMap := rfl
@[simp] theorem countLinkOverrun_lines (s : State) : (s.countLinkOverrun).lines = s.lines := rfl
@[simp] theorem countLinkOverrun_fifo (s : State) : (s.countLinkOverrun).fifo = s.fifo := rfl
@[simp] theorem countLinkOverrun_link (s : State) : (s.countLinkOverrun).link = s.link := rfl
@[simp] theorem countLinkOverrun_segment (s : State) : (s.countLinkOverrun).segment = s.segment := rfl
@[simp] theorem countLinkOverrun_defaultCoupler (s : State) : (s.countLinkOverrun).defaultCoupler = s.defaultCoupler := rfl
@[simp] theorem countLinkOverrun_counters (s : State) :
    (s.countLinkOverrun).counters = { s.counters with linkOverrun := bump s.counters.linkOverrun } := rfl

/-! ### State.setLine -/

@[simp] theorem setLine_pending (s : State) (l : Line) (f : NoticeLine → NoticeLine) : (s.setLine l f).pending = s.pending := rfl
@[simp] theorem setLine_mains (s : State) (l : Line) (f : NoticeLine → NoticeLine) : (s.setLine l f).mains = s.mains := rfl
@[simp] theorem setLine_timebase (s : State) (l : Line) (f : NoticeLine → NoticeLine) : (s.setLine l f).timebase = s.timebase := rfl
@[simp] theorem setLine_transmitter (s : State) (l : Line) (f : NoticeLine → NoticeLine) : (s.setLine l f).transmitter = s.transmitter := rfl
@[simp] theorem setLine_receivers (s : State) (l : Line) (f : NoticeLine → NoticeLine) : (s.setLine l f).receivers = s.receivers := rfl
@[simp] theorem setLine_table (s : State) (l : Line) (f : NoticeLine → NoticeLine) : (s.setLine l f).table = s.table := rfl
@[simp] theorem setLine_windows (s : State) (l : Line) (f : NoticeLine → NoticeLine) : (s.setLine l f).windows = s.windows := rfl
@[simp] theorem setLine_groups (s : State) (l : Line) (f : NoticeLine → NoticeLine) : (s.setLine l f).groups = s.groups := rfl
@[simp] theorem setLine_urgent (s : State) (l : Line) (f : NoticeLine → NoticeLine) : (s.setLine l f).urgent = s.urgent := rfl
@[simp] theorem setLine_normal (s : State) (l : Line) (f : NoticeLine → NoticeLine) : (s.setLine l f).normal = s.normal := rfl
@[simp] theorem setLine_arbiter (s : State) (l : Line) (f : NoticeLine → NoticeLine) : (s.setLine l f).arbiter = s.arbiter := rfl
@[simp] theorem setLine_contexts (s : State) (l : Line) (f : NoticeLine → NoticeLine) : (s.setLine l f).contexts = s.contexts := rfl
@[simp] theorem setLine_lineSeq (s : State) (l : Line) (f : NoticeLine → NoticeLine) : (s.setLine l f).lineSeq = s.lineSeq := rfl
@[simp] theorem setLine_attempts (s : State) (l : Line) (f : NoticeLine → NoticeLine) : (s.setLine l f).attempts = s.attempts := rfl
@[simp] theorem setLine_refresh (s : State) (l : Line) (f : NoticeLine → NoticeLine) : (s.setLine l f).refresh = s.refresh := rfl
@[simp] theorem setLine_plan (s : State) (l : Line) (f : NoticeLine → NoticeLine) : (s.setLine l f).plan = s.plan := rfl
@[simp] theorem setLine_counts (s : State) (l : Line) (f : NoticeLine → NoticeLine) : (s.setLine l f).counts = s.counts := rfl
@[simp] theorem setLine_sourceMap (s : State) (l : Line) (f : NoticeLine → NoticeLine) : (s.setLine l f).sourceMap = s.sourceMap := rfl
@[simp] theorem setLine_lines (s : State) (l : Line) (f : NoticeLine → NoticeLine) :
    (s.setLine l f).lines = s.lines.set l (f s.lines[l]) := rfl
@[simp] theorem setLine_fifo (s : State) (l : Line) (f : NoticeLine → NoticeLine) : (s.setLine l f).fifo = s.fifo := rfl
@[simp] theorem setLine_link (s : State) (l : Line) (f : NoticeLine → NoticeLine) : (s.setLine l f).link = s.link := rfl
@[simp] theorem setLine_segment (s : State) (l : Line) (f : NoticeLine → NoticeLine) : (s.setLine l f).segment = s.segment := rfl
@[simp] theorem setLine_defaultCoupler (s : State) (l : Line) (f : NoticeLine → NoticeLine) : (s.setLine l f).defaultCoupler = s.defaultCoupler := rfl
@[simp] theorem setLine_counters (s : State) (l : Line) (f : NoticeLine → NoticeLine) : (s.setLine l f).counters = s.counters := rfl

/-! ### State.queueNotice -/

@[simp] theorem queueNotice_pending (s : State) (l : Line) : (s.queueNotice l).pending = s.pending := rfl
@[simp] theorem queueNotice_mains (s : State) (l : Line) : (s.queueNotice l).mains = s.mains := rfl
@[simp] theorem queueNotice_timebase (s : State) (l : Line) : (s.queueNotice l).timebase = s.timebase := rfl
@[simp] theorem queueNotice_transmitter (s : State) (l : Line) : (s.queueNotice l).transmitter = s.transmitter := rfl
@[simp] theorem queueNotice_receivers (s : State) (l : Line) : (s.queueNotice l).receivers = s.receivers := rfl
@[simp] theorem queueNotice_table (s : State) (l : Line) : (s.queueNotice l).table = s.table := rfl
@[simp] theorem queueNotice_windows (s : State) (l : Line) : (s.queueNotice l).windows = s.windows := rfl
@[simp] theorem queueNotice_groups (s : State) (l : Line) : (s.queueNotice l).groups = s.groups := rfl
@[simp] theorem queueNotice_urgent (s : State) (l : Line) : (s.queueNotice l).urgent = s.urgent := rfl
@[simp] theorem queueNotice_normal (s : State) (l : Line) : (s.queueNotice l).normal = s.normal := rfl
@[simp] theorem queueNotice_arbiter (s : State) (l : Line) : (s.queueNotice l).arbiter = s.arbiter := rfl
@[simp] theorem queueNotice_contexts (s : State) (l : Line) : (s.queueNotice l).contexts = s.contexts := rfl
@[simp] theorem queueNotice_lineSeq (s : State) (l : Line) : (s.queueNotice l).lineSeq = s.lineSeq := rfl
@[simp] theorem queueNotice_attempts (s : State) (l : Line) : (s.queueNotice l).attempts = s.attempts := rfl
@[simp] theorem queueNotice_refresh (s : State) (l : Line) : (s.queueNotice l).refresh = s.refresh := rfl
@[simp] theorem queueNotice_plan (s : State) (l : Line) : (s.queueNotice l).plan = s.plan := rfl
@[simp] theorem queueNotice_counts (s : State) (l : Line) : (s.queueNotice l).counts = s.counts := rfl
@[simp] theorem queueNotice_sourceMap (s : State) (l : Line) : (s.queueNotice l).sourceMap = s.sourceMap := rfl
@[simp] theorem queueNotice_lines (s : State) (l : Line) : (s.queueNotice l).lines = s.lines := rfl
@[simp] theorem queueNotice_fifo (s : State) (l : Line) :
    (s.queueNotice l).fifo = s.fifo ++ [{ line := l, tag := s.lines[l].tag }] := rfl
@[simp] theorem queueNotice_link (s : State) (l : Line) : (s.queueNotice l).link = s.link := rfl
@[simp] theorem queueNotice_segment (s : State) (l : Line) : (s.queueNotice l).segment = s.segment := rfl
@[simp] theorem queueNotice_defaultCoupler (s : State) (l : Line) : (s.queueNotice l).defaultCoupler = s.defaultCoupler := rfl
@[simp] theorem queueNotice_counters (s : State) (l : Line) : (s.queueNotice l).counters = s.counters := rfl

/-! ### State.setMains -/

@[simp] theorem setMains_pending (s : State) (f : Mains → Mains) : (s.setMains f).pending = s.pending := rfl
@[simp] theorem setMains_mains (s : State) (f : Mains → Mains) :
    (s.setMains f).mains = f s.mains := rfl
@[simp] theorem setMains_timebase (s : State) (f : Mains → Mains) : (s.setMains f).timebase = s.timebase := rfl
@[simp] theorem setMains_transmitter (s : State) (f : Mains → Mains) : (s.setMains f).transmitter = s.transmitter := rfl
@[simp] theorem setMains_receivers (s : State) (f : Mains → Mains) : (s.setMains f).receivers = s.receivers := rfl
@[simp] theorem setMains_table (s : State) (f : Mains → Mains) : (s.setMains f).table = s.table := rfl
@[simp] theorem setMains_windows (s : State) (f : Mains → Mains) : (s.setMains f).windows = s.windows := rfl
@[simp] theorem setMains_groups (s : State) (f : Mains → Mains) : (s.setMains f).groups = s.groups := rfl
@[simp] theorem setMains_urgent (s : State) (f : Mains → Mains) : (s.setMains f).urgent = s.urgent := rfl
@[simp] theorem setMains_normal (s : State) (f : Mains → Mains) : (s.setMains f).normal = s.normal := rfl
@[simp] theorem setMains_arbiter (s : State) (f : Mains → Mains) : (s.setMains f).arbiter = s.arbiter := rfl
@[simp] theorem setMains_contexts (s : State) (f : Mains → Mains) : (s.setMains f).contexts = s.contexts := rfl
@[simp] theorem setMains_lineSeq (s : State) (f : Mains → Mains) : (s.setMains f).lineSeq = s.lineSeq := rfl
@[simp] theorem setMains_attempts (s : State) (f : Mains → Mains) : (s.setMains f).attempts = s.attempts := rfl
@[simp] theorem setMains_refresh (s : State) (f : Mains → Mains) : (s.setMains f).refresh = s.refresh := rfl
@[simp] theorem setMains_plan (s : State) (f : Mains → Mains) : (s.setMains f).plan = s.plan := rfl
@[simp] theorem setMains_counts (s : State) (f : Mains → Mains) : (s.setMains f).counts = s.counts := rfl
@[simp] theorem setMains_sourceMap (s : State) (f : Mains → Mains) : (s.setMains f).sourceMap = s.sourceMap := rfl
@[simp] theorem setMains_lines (s : State) (f : Mains → Mains) : (s.setMains f).lines = s.lines := rfl
@[simp] theorem setMains_fifo (s : State) (f : Mains → Mains) : (s.setMains f).fifo = s.fifo := rfl
@[simp] theorem setMains_link (s : State) (f : Mains → Mains) : (s.setMains f).link = s.link := rfl
@[simp] theorem setMains_segment (s : State) (f : Mains → Mains) : (s.setMains f).segment = s.segment := rfl
@[simp] theorem setMains_defaultCoupler (s : State) (f : Mains → Mains) : (s.setMains f).defaultCoupler = s.defaultCoupler := rfl
@[simp] theorem setMains_counters (s : State) (f : Mains → Mains) : (s.setMains f).counters = s.counters := rfl

/-! ### State.restartTimer -/

@[simp] theorem restartTimer_pending (s : State) : (s.restartTimer).pending = s.pending := rfl
@[simp] theorem restartTimer_mains (s : State) : (s.restartTimer).mains = s.mains := rfl
@[simp] theorem restartTimer_timebase (s : State) : (s.restartTimer).timebase = s.timebase := rfl
@[simp] theorem restartTimer_transmitter (s : State) : (s.restartTimer).transmitter = s.transmitter := rfl
@[simp] theorem restartTimer_receivers (s : State) : (s.restartTimer).receivers = s.receivers := rfl
@[simp] theorem restartTimer_table (s : State) : (s.restartTimer).table = s.table := rfl
@[simp] theorem restartTimer_windows (s : State) : (s.restartTimer).windows = s.windows := rfl
@[simp] theorem restartTimer_groups (s : State) : (s.restartTimer).groups = s.groups := rfl
@[simp] theorem restartTimer_urgent (s : State) : (s.restartTimer).urgent = s.urgent := rfl
@[simp] theorem restartTimer_normal (s : State) : (s.restartTimer).normal = s.normal := rfl
@[simp] theorem restartTimer_arbiter (s : State) : (s.restartTimer).arbiter = s.arbiter := rfl
@[simp] theorem restartTimer_contexts (s : State) : (s.restartTimer).contexts = s.contexts := rfl
@[simp] theorem restartTimer_lineSeq (s : State) : (s.restartTimer).lineSeq = s.lineSeq := rfl
@[simp] theorem restartTimer_attempts (s : State) : (s.restartTimer).attempts = s.attempts := rfl
@[simp] theorem restartTimer_refresh (s : State) :
    (s.restartTimer).refresh = { s.refresh with timer := s.timebase.uptime + BitVec.ofNat 32 s.refresh.interval } := rfl
@[simp] theorem restartTimer_plan (s : State) : (s.restartTimer).plan = s.plan := rfl
@[simp] theorem restartTimer_counts (s : State) : (s.restartTimer).counts = s.counts := rfl
@[simp] theorem restartTimer_sourceMap (s : State) : (s.restartTimer).sourceMap = s.sourceMap := rfl
@[simp] theorem restartTimer_lines (s : State) : (s.restartTimer).lines = s.lines := rfl
@[simp] theorem restartTimer_fifo (s : State) : (s.restartTimer).fifo = s.fifo := rfl
@[simp] theorem restartTimer_link (s : State) : (s.restartTimer).link = s.link := rfl
@[simp] theorem restartTimer_segment (s : State) : (s.restartTimer).segment = s.segment := rfl
@[simp] theorem restartTimer_defaultCoupler (s : State) : (s.restartTimer).defaultCoupler = s.defaultCoupler := rfl
@[simp] theorem restartTimer_counters (s : State) : (s.restartTimer).counters = s.counters := rfl

/-! ### State.setGroupTariff -/

@[simp] theorem setGroupTariff_pending (s : State) (g : Group) (t : Tariff) : (s.setGroupTariff g t).pending = s.pending := rfl
@[simp] theorem setGroupTariff_mains (s : State) (g : Group) (t : Tariff) : (s.setGroupTariff g t).mains = s.mains := rfl
@[simp] theorem setGroupTariff_timebase (s : State) (g : Group) (t : Tariff) : (s.setGroupTariff g t).timebase = s.timebase := rfl
@[simp] theorem setGroupTariff_transmitter (s : State) (g : Group) (t : Tariff) : (s.setGroupTariff g t).transmitter = s.transmitter := rfl
@[simp] theorem setGroupTariff_receivers (s : State) (g : Group) (t : Tariff) : (s.setGroupTariff g t).receivers = s.receivers := rfl
@[simp] theorem setGroupTariff_table (s : State) (g : Group) (t : Tariff) : (s.setGroupTariff g t).table = s.table := rfl
@[simp] theorem setGroupTariff_windows (s : State) (g : Group) (t : Tariff) : (s.setGroupTariff g t).windows = s.windows := rfl
@[simp] theorem setGroupTariff_groups (s : State) (g : Group) (t : Tariff) :
    (s.setGroupTariff g t).groups = s.groups.set g { s.groups[g] with tariff := some t } := rfl
@[simp] theorem setGroupTariff_urgent (s : State) (g : Group) (t : Tariff) : (s.setGroupTariff g t).urgent = s.urgent := rfl
@[simp] theorem setGroupTariff_normal (s : State) (g : Group) (t : Tariff) : (s.setGroupTariff g t).normal = s.normal := rfl
@[simp] theorem setGroupTariff_arbiter (s : State) (g : Group) (t : Tariff) : (s.setGroupTariff g t).arbiter = s.arbiter := rfl
@[simp] theorem setGroupTariff_contexts (s : State) (g : Group) (t : Tariff) : (s.setGroupTariff g t).contexts = s.contexts := rfl
@[simp] theorem setGroupTariff_lineSeq (s : State) (g : Group) (t : Tariff) : (s.setGroupTariff g t).lineSeq = s.lineSeq := rfl
@[simp] theorem setGroupTariff_attempts (s : State) (g : Group) (t : Tariff) : (s.setGroupTariff g t).attempts = s.attempts := rfl
@[simp] theorem setGroupTariff_refresh (s : State) (g : Group) (t : Tariff) : (s.setGroupTariff g t).refresh = s.refresh := rfl
@[simp] theorem setGroupTariff_plan (s : State) (g : Group) (t : Tariff) : (s.setGroupTariff g t).plan = s.plan := rfl
@[simp] theorem setGroupTariff_counts (s : State) (g : Group) (t : Tariff) : (s.setGroupTariff g t).counts = s.counts := rfl
@[simp] theorem setGroupTariff_sourceMap (s : State) (g : Group) (t : Tariff) : (s.setGroupTariff g t).sourceMap = s.sourceMap := rfl
@[simp] theorem setGroupTariff_lines (s : State) (g : Group) (t : Tariff) : (s.setGroupTariff g t).lines = s.lines := rfl
@[simp] theorem setGroupTariff_fifo (s : State) (g : Group) (t : Tariff) : (s.setGroupTariff g t).fifo = s.fifo := rfl
@[simp] theorem setGroupTariff_link (s : State) (g : Group) (t : Tariff) : (s.setGroupTariff g t).link = s.link := rfl
@[simp] theorem setGroupTariff_segment (s : State) (g : Group) (t : Tariff) : (s.setGroupTariff g t).segment = s.segment := rfl
@[simp] theorem setGroupTariff_defaultCoupler (s : State) (g : Group) (t : Tariff) : (s.setGroupTariff g t).defaultCoupler = s.defaultCoupler := rfl
@[simp] theorem setGroupTariff_counters (s : State) (g : Group) (t : Tariff) : (s.setGroupTariff g t).counters = s.counters := rfl

/-! ### State.beginExtension -/

@[simp] theorem beginExtension_pending (s : State) (c : Context) : (s.beginExtension c).pending = s.pending := rfl
@[simp] theorem beginExtension_mains (s : State) (c : Context) : (s.beginExtension c).mains = s.mains := rfl
@[simp] theorem beginExtension_timebase (s : State) (c : Context) : (s.beginExtension c).timebase = s.timebase := rfl
@[simp] theorem beginExtension_transmitter (s : State) (c : Context) :
    (s.beginExtension c).transmitter = some { coupler := c.coupler, bytes := c.outboundFrame } := rfl
@[simp] theorem beginExtension_receivers (s : State) (c : Context) : (s.beginExtension c).receivers = s.receivers := rfl
@[simp] theorem beginExtension_table (s : State) (c : Context) : (s.beginExtension c).table = s.table := rfl
@[simp] theorem beginExtension_windows (s : State) (c : Context) : (s.beginExtension c).windows = s.windows := rfl
@[simp] theorem beginExtension_groups (s : State) (c : Context) : (s.beginExtension c).groups = s.groups := rfl
@[simp] theorem beginExtension_urgent (s : State) (c : Context) : (s.beginExtension c).urgent = s.urgent := rfl
@[simp] theorem beginExtension_normal (s : State) (c : Context) : (s.beginExtension c).normal = s.normal := rfl
@[simp] theorem beginExtension_arbiter (s : State) (c : Context) :
    (s.beginExtension c).arbiter = { s.arbiter with reservation := none } := rfl
@[simp] theorem beginExtension_contexts (s : State) (c : Context) : (s.beginExtension c).contexts = s.contexts := rfl
@[simp] theorem beginExtension_lineSeq (s : State) (c : Context) : (s.beginExtension c).lineSeq = s.lineSeq := rfl
@[simp] theorem beginExtension_attempts (s : State) (c : Context) : (s.beginExtension c).attempts = s.attempts := rfl
@[simp] theorem beginExtension_refresh (s : State) (c : Context) : (s.beginExtension c).refresh = s.refresh := rfl
@[simp] theorem beginExtension_plan (s : State) (c : Context) : (s.beginExtension c).plan = s.plan := rfl
@[simp] theorem beginExtension_counts (s : State) (c : Context) : (s.beginExtension c).counts = s.counts := rfl
@[simp] theorem beginExtension_sourceMap (s : State) (c : Context) : (s.beginExtension c).sourceMap = s.sourceMap := rfl
@[simp] theorem beginExtension_lines (s : State) (c : Context) : (s.beginExtension c).lines = s.lines := rfl
@[simp] theorem beginExtension_fifo (s : State) (c : Context) : (s.beginExtension c).fifo = s.fifo := rfl
@[simp] theorem beginExtension_link (s : State) (c : Context) : (s.beginExtension c).link = s.link := rfl
@[simp] theorem beginExtension_segment (s : State) (c : Context) : (s.beginExtension c).segment = s.segment := rfl
@[simp] theorem beginExtension_defaultCoupler (s : State) (c : Context) : (s.beginExtension c).defaultCoupler = s.defaultCoupler := rfl
@[simp] theorem beginExtension_counters (s : State) (c : Context) : (s.beginExtension c).counters = s.counters := rfl

/-! ### State.releaseCoupler -/

@[simp] theorem releaseCoupler_pending (s : State) (c : Context) (n : Nat) : (s.releaseCoupler c n).pending = s.pending := rfl
@[simp] theorem releaseCoupler_mains (s : State) (c : Context) (n : Nat) : (s.releaseCoupler c n).mains = s.mains := rfl
@[simp] theorem releaseCoupler_timebase (s : State) (c : Context) (n : Nat) : (s.releaseCoupler c n).timebase = s.timebase := rfl
@[simp] theorem releaseCoupler_transmitter (s : State) (c : Context) (n : Nat) : (s.releaseCoupler c n).transmitter = s.transmitter := rfl
@[simp] theorem releaseCoupler_receivers (s : State) (c : Context) (n : Nat) : (s.releaseCoupler c n).receivers = s.receivers := rfl
@[simp] theorem releaseCoupler_table (s : State) (c : Context) (n : Nat) : (s.releaseCoupler c n).table = s.table := rfl
@[simp] theorem releaseCoupler_windows (s : State) (c : Context) (n : Nat) : (s.releaseCoupler c n).windows = s.windows := rfl
@[simp] theorem releaseCoupler_groups (s : State) (c : Context) (n : Nat) : (s.releaseCoupler c n).groups = s.groups := rfl
@[simp] theorem releaseCoupler_urgent (s : State) (c : Context) (n : Nat) : (s.releaseCoupler c n).urgent = s.urgent := rfl
@[simp] theorem releaseCoupler_normal (s : State) (c : Context) (n : Nat) : (s.releaseCoupler c n).normal = s.normal := rfl
@[simp] theorem releaseCoupler_contexts (s : State) (c : Context) (n : Nat) : (s.releaseCoupler c n).contexts = s.contexts := rfl
@[simp] theorem releaseCoupler_lineSeq (s : State) (c : Context) (n : Nat) : (s.releaseCoupler c n).lineSeq = s.lineSeq := rfl
@[simp] theorem releaseCoupler_attempts (s : State) (c : Context) (n : Nat) : (s.releaseCoupler c n).attempts = s.attempts := rfl
@[simp] theorem releaseCoupler_refresh (s : State) (c : Context) (n : Nat) : (s.releaseCoupler c n).refresh = s.refresh := rfl
@[simp] theorem releaseCoupler_plan (s : State) (c : Context) (n : Nat) : (s.releaseCoupler c n).plan = s.plan := rfl
@[simp] theorem releaseCoupler_counts (s : State) (c : Context) (n : Nat) : (s.releaseCoupler c n).counts = s.counts := rfl
@[simp] theorem releaseCoupler_sourceMap (s : State) (c : Context) (n : Nat) : (s.releaseCoupler c n).sourceMap = s.sourceMap := rfl
@[simp] theorem releaseCoupler_lines (s : State) (c : Context) (n : Nat) : (s.releaseCoupler c n).lines = s.lines := rfl
@[simp] theorem releaseCoupler_fifo (s : State) (c : Context) (n : Nat) : (s.releaseCoupler c n).fifo = s.fifo := rfl
@[simp] theorem releaseCoupler_link (s : State) (c : Context) (n : Nat) : (s.releaseCoupler c n).link = s.link := rfl
@[simp] theorem releaseCoupler_segment (s : State) (c : Context) (n : Nat) : (s.releaseCoupler c n).segment = s.segment := rfl
@[simp] theorem releaseCoupler_defaultCoupler (s : State) (c : Context) (n : Nat) : (s.releaseCoupler c n).defaultCoupler = s.defaultCoupler := rfl
@[simp] theorem releaseCoupler_counters (s : State) (c : Context) (n : Nat) : (s.releaseCoupler c n).counters = s.counters := rfl

/-! ### State.layGrid -/

@[simp] theorem layGrid_pending (s : State) (f : Frequency) : (s.layGrid f).pending = s.pending := rfl
@[simp] theorem layGrid_timebase (s : State) (f : Frequency) : (s.layGrid f).timebase = s.timebase := rfl
@[simp] theorem layGrid_transmitter (s : State) (f : Frequency) : (s.layGrid f).transmitter = s.transmitter := rfl
@[simp] theorem layGrid_receivers (s : State) (f : Frequency) : (s.layGrid f).receivers = s.receivers := rfl
@[simp] theorem layGrid_table (s : State) (f : Frequency) : (s.layGrid f).table = s.table := rfl
@[simp] theorem layGrid_windows (s : State) (f : Frequency) : (s.layGrid f).windows = s.windows := rfl
@[simp] theorem layGrid_groups (s : State) (f : Frequency) : (s.layGrid f).groups = s.groups := rfl
@[simp] theorem layGrid_urgent (s : State) (f : Frequency) : (s.layGrid f).urgent = s.urgent := rfl
@[simp] theorem layGrid_normal (s : State) (f : Frequency) : (s.layGrid f).normal = s.normal := rfl
@[simp] theorem layGrid_contexts (s : State) (f : Frequency) : (s.layGrid f).contexts = s.contexts := rfl
@[simp] theorem layGrid_lineSeq (s : State) (f : Frequency) : (s.layGrid f).lineSeq = s.lineSeq := rfl
@[simp] theorem layGrid_attempts (s : State) (f : Frequency) : (s.layGrid f).attempts = s.attempts := rfl
@[simp] theorem layGrid_refresh (s : State) (f : Frequency) : (s.layGrid f).refresh = s.refresh := rfl
@[simp] theorem layGrid_plan (s : State) (f : Frequency) : (s.layGrid f).plan = s.plan := rfl
@[simp] theorem layGrid_counts (s : State) (f : Frequency) : (s.layGrid f).counts = s.counts := rfl
@[simp] theorem layGrid_sourceMap (s : State) (f : Frequency) : (s.layGrid f).sourceMap = s.sourceMap := rfl
@[simp] theorem layGrid_lines (s : State) (f : Frequency) : (s.layGrid f).lines = s.lines := rfl
@[simp] theorem layGrid_fifo (s : State) (f : Frequency) : (s.layGrid f).fifo = s.fifo := rfl
@[simp] theorem layGrid_link (s : State) (f : Frequency) : (s.layGrid f).link = s.link := rfl
@[simp] theorem layGrid_segment (s : State) (f : Frequency) : (s.layGrid f).segment = s.segment := rfl
@[simp] theorem layGrid_defaultCoupler (s : State) (f : Frequency) : (s.layGrid f).defaultCoupler = s.defaultCoupler := rfl
@[simp] theorem layGrid_counters (s : State) (f : Frequency) : (s.layGrid f).counters = s.counters := rfl

/-! ### State.beginSlot -/

@[simp] theorem beginSlot_pending (s : State) : (s.beginSlot).pending = s.pending := rfl
@[simp] theorem beginSlot_timebase (s : State) : (s.beginSlot).timebase = s.timebase := rfl
@[simp] theorem beginSlot_receivers (s : State) :
    (s.beginSlot).receivers = Receivers.quiet := rfl
@[simp] theorem beginSlot_table (s : State) : (s.beginSlot).table = s.table := rfl
@[simp] theorem beginSlot_windows (s : State) : (s.beginSlot).windows = s.windows := rfl
@[simp] theorem beginSlot_groups (s : State) : (s.beginSlot).groups = s.groups := rfl
@[simp] theorem beginSlot_urgent (s : State) : (s.beginSlot).urgent = s.urgent := rfl
@[simp] theorem beginSlot_normal (s : State) : (s.beginSlot).normal = s.normal := rfl
@[simp] theorem beginSlot_arbiter (s : State) : (s.beginSlot).arbiter = s.arbiter := rfl
@[simp] theorem beginSlot_lineSeq (s : State) : (s.beginSlot).lineSeq = s.lineSeq := rfl
@[simp] theorem beginSlot_attempts (s : State) : (s.beginSlot).attempts = s.attempts := rfl
@[simp] theorem beginSlot_refresh (s : State) : (s.beginSlot).refresh = s.refresh := rfl
@[simp] theorem beginSlot_plan (s : State) : (s.beginSlot).plan = s.plan := rfl
@[simp] theorem beginSlot_counts (s : State) : (s.beginSlot).counts = s.counts := rfl
@[simp] theorem beginSlot_sourceMap (s : State) : (s.beginSlot).sourceMap = s.sourceMap := rfl
@[simp] theorem beginSlot_lines (s : State) : (s.beginSlot).lines = s.lines := rfl
@[simp] theorem beginSlot_fifo (s : State) : (s.beginSlot).fifo = s.fifo := rfl
@[simp] theorem beginSlot_link (s : State) : (s.beginSlot).link = s.link := rfl
@[simp] theorem beginSlot_segment (s : State) : (s.beginSlot).segment = s.segment := rfl
@[simp] theorem beginSlot_defaultCoupler (s : State) : (s.beginSlot).defaultCoupler = s.defaultCoupler := rfl
@[simp] theorem beginSlot_counters (s : State) : (s.beginSlot).counters = s.counters := rfl

/-! ### State.loseBlocks -/

@[simp] theorem loseBlocks_pending (s : State) : (s.loseBlocks).pending = s.pending := rfl
@[simp] theorem loseBlocks_mains (s : State) : (s.loseBlocks).mains = s.mains := rfl
@[simp] theorem loseBlocks_timebase (s : State) : (s.loseBlocks).timebase = s.timebase := rfl
@[simp] theorem loseBlocks_transmitter (s : State) :
    (s.loseBlocks).transmitter = none := rfl
@[simp] theorem loseBlocks_receivers (s : State) :
    (s.loseBlocks).receivers = Receivers.quiet := rfl
@[simp] theorem loseBlocks_table (s : State) :
    (s.loseBlocks).table = s.table.map s.recordAtLoss := rfl
@[simp] theorem loseBlocks_windows (s : State) : (s.loseBlocks).windows = s.windows := rfl
@[simp] theorem loseBlocks_groups (s : State) : (s.loseBlocks).groups = s.groups := rfl
@[simp] theorem loseBlocks_urgent (s : State) :
    (s.loseBlocks).urgent = [] := rfl
@[simp] theorem loseBlocks_normal (s : State) :
    (s.loseBlocks).normal = [] := rfl
@[simp] theorem loseBlocks_arbiter (s : State) :
    (s.loseBlocks).arbiter = s.arbiter.lose := rfl
@[simp] theorem loseBlocks_contexts (s : State) :
    (s.loseBlocks).contexts = [] := rfl
@[simp] theorem loseBlocks_lineSeq (s : State) : (s.loseBlocks).lineSeq = s.lineSeq := rfl
@[simp] theorem loseBlocks_attempts (s : State) : (s.loseBlocks).attempts = s.attempts := rfl
@[simp] theorem loseBlocks_refresh (s : State) :
    (s.loseBlocks).refresh = { s.refresh with inFlight := none } := rfl
@[simp] theorem loseBlocks_plan (s : State) : (s.loseBlocks).plan = s.plan := rfl
@[simp] theorem loseBlocks_counts (s : State) : (s.loseBlocks).counts = s.counts := rfl
@[simp] theorem loseBlocks_sourceMap (s : State) : (s.loseBlocks).sourceMap = s.sourceMap := rfl
@[simp] theorem loseBlocks_lines (s : State) : (s.loseBlocks).lines = s.lines := rfl
@[simp] theorem loseBlocks_fifo (s : State) : (s.loseBlocks).fifo = s.fifo := rfl
@[simp] theorem loseBlocks_link (s : State) : (s.loseBlocks).link = s.link := rfl
@[simp] theorem loseBlocks_segment (s : State) : (s.loseBlocks).segment = s.segment := rfl
@[simp] theorem loseBlocks_defaultCoupler (s : State) : (s.loseBlocks).defaultCoupler = s.defaultCoupler := rfl
@[simp] theorem loseBlocks_counters (s : State) : (s.loseBlocks).counters = s.counters := rfl

/-! ### State.launch -/

@[simp] theorem launch_pending (s : State) (j : Job) (src : Source) (c : Coupler) (route : List Addr) (p : Nat) : (s.launch j src c route p).pending = s.pending := rfl
@[simp] theorem launch_mains (s : State) (j : Job) (src : Source) (c : Coupler) (route : List Addr) (p : Nat) : (s.launch j src c route p).mains = s.mains := rfl
@[simp] theorem launch_timebase (s : State) (j : Job) (src : Source) (c : Coupler) (route : List Addr) (p : Nat) : (s.launch j src c route p).timebase = s.timebase := rfl
@[simp] theorem launch_receivers (s : State) (j : Job) (src : Source) (c : Coupler) (route : List Addr) (p : Nat) : (s.launch j src c route p).receivers = s.receivers := rfl
@[simp] theorem launch_table (s : State) (j : Job) (src : Source) (c : Coupler) (route : List Addr) (p : Nat) : (s.launch j src c route p).table = s.table := rfl
@[simp] theorem launch_windows (s : State) (j : Job) (src : Source) (c : Coupler) (route : List Addr) (p : Nat) : (s.launch j src c route p).windows = s.windows := rfl
@[simp] theorem launch_groups (s : State) (j : Job) (src : Source) (c : Coupler) (route : List Addr) (p : Nat) : (s.launch j src c route p).groups = s.groups := rfl
@[simp] theorem launch_urgent (s : State) (j : Job) (src : Source) (c : Coupler) (route : List Addr) (p : Nat) : (s.launch j src c route p).urgent = s.urgent := rfl
@[simp] theorem launch_normal (s : State) (j : Job) (src : Source) (c : Coupler) (route : List Addr) (p : Nat) : (s.launch j src c route p).normal = s.normal := rfl
@[simp] theorem launch_arbiter (s : State) (j : Job) (src : Source) (c : Coupler) (route : List Addr) (p : Nat) : (s.launch j src c route p).arbiter = s.arbiter := rfl
@[simp] theorem launch_lineSeq (s : State) (j : Job) (src : Source) (c : Coupler) (route : List Addr) (p : Nat) :
    (s.launch j src c route p).lineSeq = s.lineSeq + 1 := rfl
@[simp] theorem launch_attempts (s : State) (j : Job) (src : Source) (c : Coupler) (route : List Addr) (p : Nat) : (s.launch j src c route p).attempts = s.attempts := rfl
@[simp] theorem launch_refresh (s : State) (j : Job) (src : Source) (c : Coupler) (route : List Addr) (p : Nat) : (s.launch j src c route p).refresh = s.refresh := rfl
@[simp] theorem launch_plan (s : State) (j : Job) (src : Source) (c : Coupler) (route : List Addr) (p : Nat) : (s.launch j src c route p).plan = s.plan := rfl
@[simp] theorem launch_counts (s : State) (j : Job) (src : Source) (c : Coupler) (route : List Addr) (p : Nat) : (s.launch j src c route p).counts = s.counts := rfl
@[simp] theorem launch_sourceMap (s : State) (j : Job) (src : Source) (c : Coupler) (route : List Addr) (p : Nat) : (s.launch j src c route p).sourceMap = s.sourceMap := rfl
@[simp] theorem launch_lines (s : State) (j : Job) (src : Source) (c : Coupler) (route : List Addr) (p : Nat) : (s.launch j src c route p).lines = s.lines := rfl
@[simp] theorem launch_fifo (s : State) (j : Job) (src : Source) (c : Coupler) (route : List Addr) (p : Nat) : (s.launch j src c route p).fifo = s.fifo := rfl
@[simp] theorem launch_link (s : State) (j : Job) (src : Source) (c : Coupler) (route : List Addr) (p : Nat) : (s.launch j src c route p).link = s.link := rfl
@[simp] theorem launch_segment (s : State) (j : Job) (src : Source) (c : Coupler) (route : List Addr) (p : Nat) : (s.launch j src c route p).segment = s.segment := rfl
@[simp] theorem launch_defaultCoupler (s : State) (j : Job) (src : Source) (c : Coupler) (route : List Addr) (p : Nat) : (s.launch j src c route p).defaultCoupler = s.defaultCoupler := rfl
@[simp] theorem launch_counters (s : State) (j : Job) (src : Source) (c : Coupler) (route : List Addr) (p : Nat) : (s.launch j src c route p).counters = s.counters := rfl

/-! ### State.remapped -/

@[simp] theorem remapped_pending (s : State) (l : List SourceId) (t : Option Line) : (s.remapped l t).pending = s.pending := rfl
@[simp] theorem remapped_mains (s : State) (l : List SourceId) (t : Option Line) : (s.remapped l t).mains = s.mains := rfl
@[simp] theorem remapped_timebase (s : State) (l : List SourceId) (t : Option Line) : (s.remapped l t).timebase = s.timebase := rfl
@[simp] theorem remapped_transmitter (s : State) (l : List SourceId) (t : Option Line) : (s.remapped l t).transmitter = s.transmitter := rfl
@[simp] theorem remapped_receivers (s : State) (l : List SourceId) (t : Option Line) : (s.remapped l t).receivers = s.receivers := rfl
@[simp] theorem remapped_table (s : State) (l : List SourceId) (t : Option Line) : (s.remapped l t).table = s.table := rfl
@[simp] theorem remapped_windows (s : State) (l : List SourceId) (t : Option Line) : (s.remapped l t).windows = s.windows := rfl
@[simp] theorem remapped_groups (s : State) (l : List SourceId) (t : Option Line) : (s.remapped l t).groups = s.groups := rfl
@[simp] theorem remapped_urgent (s : State) (l : List SourceId) (t : Option Line) : (s.remapped l t).urgent = s.urgent := rfl
@[simp] theorem remapped_normal (s : State) (l : List SourceId) (t : Option Line) : (s.remapped l t).normal = s.normal := rfl
@[simp] theorem remapped_arbiter (s : State) (l : List SourceId) (t : Option Line) : (s.remapped l t).arbiter = s.arbiter := rfl
@[simp] theorem remapped_contexts (s : State) (l : List SourceId) (t : Option Line) : (s.remapped l t).contexts = s.contexts := rfl
@[simp] theorem remapped_lineSeq (s : State) (l : List SourceId) (t : Option Line) : (s.remapped l t).lineSeq = s.lineSeq := rfl
@[simp] theorem remapped_attempts (s : State) (l : List SourceId) (t : Option Line) : (s.remapped l t).attempts = s.attempts := rfl
@[simp] theorem remapped_refresh (s : State) (l : List SourceId) (t : Option Line) : (s.remapped l t).refresh = s.refresh := rfl
@[simp] theorem remapped_plan (s : State) (l : List SourceId) (t : Option Line) : (s.remapped l t).plan = s.plan := rfl
@[simp] theorem remapped_counts (s : State) (l : List SourceId) (t : Option Line) : (s.remapped l t).counts = s.counts := rfl
@[simp] theorem remapped_lines (s : State) (l : List SourceId) (t : Option Line) : (s.remapped l t).lines = s.lines := rfl
@[simp] theorem remapped_fifo (s : State) (l : List SourceId) (t : Option Line) : (s.remapped l t).fifo = s.fifo := rfl
@[simp] theorem remapped_link (s : State) (l : List SourceId) (t : Option Line) : (s.remapped l t).link = s.link := rfl
@[simp] theorem remapped_segment (s : State) (l : List SourceId) (t : Option Line) : (s.remapped l t).segment = s.segment := rfl
@[simp] theorem remapped_defaultCoupler (s : State) (l : List SourceId) (t : Option Line) : (s.remapped l t).defaultCoupler = s.defaultCoupler := rfl
@[simp] theorem remapped_counters (s : State) (l : List SourceId) (t : Option Line) : (s.remapped l t).counters = s.counters := rfl

/-! ### State.putReply -/

@[simp] theorem putReply_pending (s : State) (f : LinkFrame) : (s.putReply f).pending = s.pending := rfl
@[simp] theorem putReply_mains (s : State) (f : LinkFrame) : (s.putReply f).mains = s.mains := rfl
@[simp] theorem putReply_timebase (s : State) (f : LinkFrame) : (s.putReply f).timebase = s.timebase := rfl
@[simp] theorem putReply_transmitter (s : State) (f : LinkFrame) : (s.putReply f).transmitter = s.transmitter := rfl
@[simp] theorem putReply_receivers (s : State) (f : LinkFrame) : (s.putReply f).receivers = s.receivers := rfl
@[simp] theorem putReply_table (s : State) (f : LinkFrame) : (s.putReply f).table = s.table := rfl
@[simp] theorem putReply_windows (s : State) (f : LinkFrame) : (s.putReply f).windows = s.windows := rfl
@[simp] theorem putReply_groups (s : State) (f : LinkFrame) : (s.putReply f).groups = s.groups := rfl
@[simp] theorem putReply_urgent (s : State) (f : LinkFrame) : (s.putReply f).urgent = s.urgent := rfl
@[simp] theorem putReply_normal (s : State) (f : LinkFrame) : (s.putReply f).normal = s.normal := rfl
@[simp] theorem putReply_arbiter (s : State) (f : LinkFrame) : (s.putReply f).arbiter = s.arbiter := rfl
@[simp] theorem putReply_contexts (s : State) (f : LinkFrame) : (s.putReply f).contexts = s.contexts := rfl
@[simp] theorem putReply_lineSeq (s : State) (f : LinkFrame) : (s.putReply f).lineSeq = s.lineSeq := rfl
@[simp] theorem putReply_attempts (s : State) (f : LinkFrame) : (s.putReply f).attempts = s.attempts := rfl
@[simp] theorem putReply_refresh (s : State) (f : LinkFrame) : (s.putReply f).refresh = s.refresh := rfl
@[simp] theorem putReply_plan (s : State) (f : LinkFrame) : (s.putReply f).plan = s.plan := rfl
@[simp] theorem putReply_counts (s : State) (f : LinkFrame) : (s.putReply f).counts = s.counts := rfl
@[simp] theorem putReply_sourceMap (s : State) (f : LinkFrame) : (s.putReply f).sourceMap = s.sourceMap := rfl
@[simp] theorem putReply_lines (s : State) (f : LinkFrame) : (s.putReply f).lines = s.lines := rfl
@[simp] theorem putReply_fifo (s : State) (f : LinkFrame) : (s.putReply f).fifo = s.fifo := rfl
@[simp] theorem putReply_link (s : State) (f : LinkFrame) :
    (s.putReply f).link = { s.link with replies := s.link.replies ++ [f] } := rfl
@[simp] theorem putReply_segment (s : State) (f : LinkFrame) : (s.putReply f).segment = s.segment := rfl
@[simp] theorem putReply_defaultCoupler (s : State) (f : LinkFrame) : (s.putReply f).defaultCoupler = s.defaultCoupler := rfl
@[simp] theorem putReply_counters (s : State) (f : LinkFrame) : (s.putReply f).counters = s.counters := rfl

/-! ### State.send -/

@[simp] theorem send_pending (s : State) (f : Option LinkFrame) : (s.send f).pending = s.pending := rfl
@[simp] theorem send_mains (s : State) (f : Option LinkFrame) : (s.send f).mains = s.mains := rfl
@[simp] theorem send_timebase (s : State) (f : Option LinkFrame) : (s.send f).timebase = s.timebase := rfl
@[simp] theorem send_transmitter (s : State) (f : Option LinkFrame) : (s.send f).transmitter = s.transmitter := rfl
@[simp] theorem send_receivers (s : State) (f : Option LinkFrame) : (s.send f).receivers = s.receivers := rfl
@[simp] theorem send_table (s : State) (f : Option LinkFrame) : (s.send f).table = s.table := rfl
@[simp] theorem send_windows (s : State) (f : Option LinkFrame) : (s.send f).windows = s.windows := rfl
@[simp] theorem send_groups (s : State) (f : Option LinkFrame) : (s.send f).groups = s.groups := rfl
@[simp] theorem send_urgent (s : State) (f : Option LinkFrame) : (s.send f).urgent = s.urgent := rfl
@[simp] theorem send_normal (s : State) (f : Option LinkFrame) : (s.send f).normal = s.normal := rfl
@[simp] theorem send_arbiter (s : State) (f : Option LinkFrame) : (s.send f).arbiter = s.arbiter := rfl
@[simp] theorem send_contexts (s : State) (f : Option LinkFrame) : (s.send f).contexts = s.contexts := rfl
@[simp] theorem send_lineSeq (s : State) (f : Option LinkFrame) : (s.send f).lineSeq = s.lineSeq := rfl
@[simp] theorem send_attempts (s : State) (f : Option LinkFrame) : (s.send f).attempts = s.attempts := rfl
@[simp] theorem send_refresh (s : State) (f : Option LinkFrame) : (s.send f).refresh = s.refresh := rfl
@[simp] theorem send_plan (s : State) (f : Option LinkFrame) : (s.send f).plan = s.plan := rfl
@[simp] theorem send_counts (s : State) (f : Option LinkFrame) : (s.send f).counts = s.counts := rfl
@[simp] theorem send_sourceMap (s : State) (f : Option LinkFrame) : (s.send f).sourceMap = s.sourceMap := rfl
@[simp] theorem send_lines (s : State) (f : Option LinkFrame) : (s.send f).lines = s.lines := rfl
@[simp] theorem send_fifo (s : State) (f : Option LinkFrame) : (s.send f).fifo = s.fifo := rfl
@[simp] theorem send_link (s : State) (f : Option LinkFrame) :
    (s.send f).link = { s.link with sending := f } := rfl
@[simp] theorem send_segment (s : State) (f : Option LinkFrame) : (s.send f).segment = s.segment := rfl
@[simp] theorem send_defaultCoupler (s : State) (f : Option LinkFrame) : (s.send f).defaultCoupler = s.defaultCoupler := rfl
@[simp] theorem send_counters (s : State) (f : Option LinkFrame) : (s.send f).counters = s.counters := rfl

/-! ### restartArbiter -/

@[simp] theorem restartArbiter_pending (s : State) : (restartArbiter s).pending = s.pending := rfl
@[simp] theorem restartArbiter_mains (s : State) : (restartArbiter s).mains = s.mains := rfl
@[simp] theorem restartArbiter_timebase (s : State) : (restartArbiter s).timebase = s.timebase := rfl
@[simp] theorem restartArbiter_transmitter (s : State) : (restartArbiter s).transmitter = s.transmitter := rfl
@[simp] theorem restartArbiter_receivers (s : State) : (restartArbiter s).receivers = s.receivers := rfl
@[simp] theorem restartArbiter_table (s : State) : (restartArbiter s).table = s.table := rfl
@[simp] theorem restartArbiter_windows (s : State) : (restartArbiter s).windows = s.windows := rfl
@[simp] theorem restartArbiter_groups (s : State) : (restartArbiter s).groups = s.groups := rfl
@[simp] theorem restartArbiter_urgent (s : State) : (restartArbiter s).urgent = s.urgent := rfl
@[simp] theorem restartArbiter_normal (s : State) : (restartArbiter s).normal = s.normal := rfl
@[simp] theorem restartArbiter_contexts (s : State) :
    (restartArbiter s).contexts = [] := rfl
@[simp] theorem restartArbiter_lineSeq (s : State) : (restartArbiter s).lineSeq = s.lineSeq := rfl
@[simp] theorem restartArbiter_attempts (s : State) : (restartArbiter s).attempts = s.attempts := rfl
@[simp] theorem restartArbiter_refresh (s : State) : (restartArbiter s).refresh = s.refresh := rfl
@[simp] theorem restartArbiter_plan (s : State) : (restartArbiter s).plan = s.plan := rfl
@[simp] theorem restartArbiter_counts (s : State) : (restartArbiter s).counts = s.counts := rfl
@[simp] theorem restartArbiter_sourceMap (s : State) : (restartArbiter s).sourceMap = s.sourceMap := rfl
@[simp] theorem restartArbiter_lines (s : State) : (restartArbiter s).lines = s.lines := rfl
@[simp] theorem restartArbiter_fifo (s : State) : (restartArbiter s).fifo = s.fifo := rfl
@[simp] theorem restartArbiter_link (s : State) : (restartArbiter s).link = s.link := rfl
@[simp] theorem restartArbiter_segment (s : State) : (restartArbiter s).segment = s.segment := rfl
@[simp] theorem restartArbiter_defaultCoupler (s : State) : (restartArbiter s).defaultCoupler = s.defaultCoupler := rfl
@[simp] theorem restartArbiter_counters (s : State) : (restartArbiter s).counters = s.counters := rfl

end Sys2Proof.Machine
end

