-- ==== Sys2Proof/Laws/Frames.lean ====
section
/-! SUPPORT. What the operations over State leave unchanged: field by field for the small ones, and by the three
frames below for the larger ones. -/

namespace Sys2Proof.Machine

/-- What every step of a walk leaves, the walk leaves. -/
theorem foldl_keeps {σ α β : Type} (get : σ → β) (f : σ → α → σ) (h : ∀ s a, get (f s a) = get s) :
    ∀ (l : List α) (s : σ), get (l.foldl f s) = get s
  | [], _ => rfl
  | a :: l, s => (foldl_keeps get f h l (f s a)).trans (h s a)

/-- A relation that every step of a walk keeps to its start holds after the walk. -/
theorem foldl_relates {σ α : Type} (R : σ → σ → Prop) (refl : ∀ s, R s s)
    (trans : ∀ {s t u}, R s t → R t u → R s u) (f : σ → α → σ) (h : ∀ s a, R s (f s a)) :
    ∀ (l : List α) (s : σ), R s (l.foldl f s)
  | [], s => refl s
  | a :: l, s => trans (h s a) (foldl_relates R refl trans f h l (f s a))

/-- Only the records, the queues and the counters may have changed. -/
structure DeliveryFrame (s t : State) : Prop where
  pending : t.pending = s.pending
  mains : t.mains = s.mains
  timebase : t.timebase = s.timebase
  transmitter : t.transmitter = s.transmitter
  receivers : t.receivers = s.receivers
  windows : t.windows = s.windows
  groups : t.groups = s.groups
  arbiter : t.arbiter = s.arbiter
  contexts : t.contexts = s.contexts
  lineSeq : t.lineSeq = s.lineSeq
  attempts : t.attempts = s.attempts
  refresh : t.refresh = s.refresh
  plan : t.plan = s.plan
  counts : t.counts = s.counts
  sourceMap : t.sourceMap = s.sourceMap
  lines : t.lines = s.lines
  fifo : t.fifo = s.fifo
  link : t.link = s.link
  segment : t.segment = s.segment
  defaultCoupler : t.defaultCoupler = s.defaultCoupler

theorem DeliveryFrame.refl (s : State) : DeliveryFrame s s := by constructor <;> rfl

theorem DeliveryFrame.trans {s t u : State} (h : DeliveryFrame s t) (k : DeliveryFrame t u) : DeliveryFrame s u where
  pending := k.pending.trans h.pending
  mains := k.mains.trans h.mains
  timebase := k.timebase.trans h.timebase
  transmitter := k.transmitter.trans h.transmitter
  receivers := k.receivers.trans h.receivers
  windows := k.windows.trans h.windows
  groups := k.groups.trans h.groups
  arbiter := k.arbiter.trans h.arbiter
  contexts := k.contexts.trans h.contexts
  lineSeq := k.lineSeq.trans h.lineSeq
  attempts := k.attempts.trans h.attempts
  refresh := k.refresh.trans h.refresh
  plan := k.plan.trans h.plan
  counts := k.counts.trans h.counts
  sourceMap := k.sourceMap.trans h.sourceMap
  lines := k.lines.trans h.lines
  fifo := k.fifo.trans h.fifo
  link := k.link.trans h.link
  segment := k.segment.trans h.segment
  defaultCoupler := k.defaultCoupler.trans h.defaultCoupler

/-- Only the records, the queues, the counters, the source counts and the notices may have changed. -/
structure RecordFrame (s t : State) : Prop where
  pending : t.pending = s.pending
  mains : t.mains = s.mains
  timebase : t.timebase = s.timebase
  transmitter : t.transmitter = s.transmitter
  receivers : t.receivers = s.receivers
  windows : t.windows = s.windows
  groups : t.groups = s.groups
  arbiter : t.arbiter = s.arbiter
  contexts : t.contexts = s.contexts
  lineSeq : t.lineSeq = s.lineSeq
  attempts : t.attempts = s.attempts
  refresh : t.refresh = s.refresh
  plan : t.plan = s.plan
  sourceMap : t.sourceMap = s.sourceMap
  link : t.link = s.link
  segment : t.segment = s.segment
  defaultCoupler : t.defaultCoupler = s.defaultCoupler

theorem RecordFrame.refl (s : State) : RecordFrame s s := by constructor <;> rfl

theorem RecordFrame.trans {s t u : State} (h : RecordFrame s t) (k : RecordFrame t u) : RecordFrame s u where
  pending := k.pending.trans h.pending
  mains := k.mains.trans h.mains
  timebase := k.timebase.trans h.timebase
  transmitter := k.transmitter.trans h.transmitter
  receivers := k.receivers.trans h.receivers
  windows := k.windows.trans h.windows
  groups := k.groups.trans h.groups
  arbiter := k.arbiter.trans h.arbiter
  contexts := k.contexts.trans h.contexts
  lineSeq := k.lineSeq.trans h.lineSeq
  attempts := k.attempts.trans h.attempts
  refresh := k.refresh.trans h.refresh
  plan := k.plan.trans h.plan
  sourceMap := k.sourceMap.trans h.sourceMap
  link := k.link.trans h.link
  segment := k.segment.trans h.segment
  defaultCoupler := k.defaultCoupler.trans h.defaultCoupler

/-- Beside what RecordFrame allows, the contexts, the Refresh Controller and the arbiter may have changed. -/
structure EndFrame (s t : State) : Prop where
  pending : t.pending = s.pending
  mains : t.mains = s.mains
  timebase : t.timebase = s.timebase
  transmitter : t.transmitter = s.transmitter
  receivers : t.receivers = s.receivers
  windows : t.windows = s.windows
  groups : t.groups = s.groups
  lineSeq : t.lineSeq = s.lineSeq
  attempts : t.attempts = s.attempts
  plan : t.plan = s.plan
  sourceMap : t.sourceMap = s.sourceMap
  link : t.link = s.link
  segment : t.segment = s.segment
  defaultCoupler : t.defaultCoupler = s.defaultCoupler

theorem EndFrame.refl (s : State) : EndFrame s s := by constructor <;> rfl

theorem EndFrame.trans {s t u : State} (h : EndFrame s t) (k : EndFrame t u) : EndFrame s u where
  pending := k.pending.trans h.pending
  mains := k.mains.trans h.mains
  timebase := k.timebase.trans h.timebase
  transmitter := k.transmitter.trans h.transmitter
  receivers := k.receivers.trans h.receivers
  windows := k.windows.trans h.windows
  groups := k.groups.trans h.groups
  lineSeq := k.lineSeq.trans h.lineSeq
  attempts := k.attempts.trans h.attempts
  plan := k.plan.trans h.plan
  sourceMap := k.sourceMap.trans h.sourceMap
  link := k.link.trans h.link
  segment := k.segment.trans h.segment
  defaultCoupler := k.defaultCoupler.trans h.defaultCoupler

theorem DeliveryFrame.record {s t : State} (h : DeliveryFrame s t) : RecordFrame s t where
  pending := h.pending
  mains := h.mains
  timebase := h.timebase
  transmitter := h.transmitter
  receivers := h.receivers
  windows := h.windows
  groups := h.groups
  arbiter := h.arbiter
  contexts := h.contexts
  lineSeq := h.lineSeq
  attempts := h.attempts
  refresh := h.refresh
  plan := h.plan
  sourceMap := h.sourceMap
  link := h.link
  segment := h.segment
  defaultCoupler := h.defaultCoupler

theorem RecordFrame.ends {s t : State} (h : RecordFrame s t) : EndFrame s t where
  pending := h.pending
  mains := h.mains
  timebase := h.timebase
  transmitter := h.transmitter
  receivers := h.receivers
  windows := h.windows
  groups := h.groups
  lineSeq := h.lineSeq
  attempts := h.attempts
  plan := h.plan
  sourceMap := h.sourceMap
  link := h.link
  segment := h.segment
  defaultCoupler := h.defaultCoupler

/-! ### The test of a LEVEL line -/

@[simp] theorem testLine_pending (s : State) (l : Line) : (s.testLine l).pending = s.pending :=
  by
  unfold State.testLine; dsimp only; split; · rfl
  split <;> rfl
@[simp] theorem testLine_mains (s : State) (l : Line) : (s.testLine l).mains = s.mains :=
  by
  unfold State.testLine; dsimp only; split; · rfl
  split <;> rfl
@[simp] theorem testLine_timebase (s : State) (l : Line) : (s.testLine l).timebase = s.timebase :=
  by
  unfold State.testLine; dsimp only; split; · rfl
  split <;> rfl
@[simp] theorem testLine_transmitter (s : State) (l : Line) : (s.testLine l).transmitter = s.transmitter :=
  by
  unfold State.testLine; dsimp only; split; · rfl
  split <;> rfl
@[simp] theorem testLine_receivers (s : State) (l : Line) : (s.testLine l).receivers = s.receivers :=
  by
  unfold State.testLine; dsimp only; split; · rfl
  split <;> rfl
@[simp] theorem testLine_table (s : State) (l : Line) : (s.testLine l).table = s.table :=
  by
  unfold State.testLine; dsimp only; split; · rfl
  split <;> rfl
@[simp] theorem testLine_windows (s : State) (l : Line) : (s.testLine l).windows = s.windows :=
  by
  unfold State.testLine; dsimp only; split; · rfl
  split <;> rfl
@[simp] theorem testLine_groups (s : State) (l : Line) : (s.testLine l).groups = s.groups :=
  by
  unfold State.testLine; dsimp only; split; · rfl
  split <;> rfl
@[simp] theorem testLine_urgent (s : State) (l : Line) : (s.testLine l).urgent = s.urgent :=
  by
  unfold State.testLine; dsimp only; split; · rfl
  split <;> rfl
@[simp] theorem testLine_normal (s : State) (l : Line) : (s.testLine l).normal = s.normal :=
  by
  unfold State.testLine; dsimp only; split; · rfl
  split <;> rfl
@[simp] theorem testLine_arbiter (s : State) (l : Line) : (s.testLine l).arbiter = s.arbiter :=
  by
  unfold State.testLine; dsimp only; split; · rfl
  split <;> rfl
@[simp] theorem testLine_contexts (s : State) (l : Line) : (s.testLine l).contexts = s.contexts :=
  by
  unfold State.testLine; dsimp only; split; · rfl
  split <;> rfl
@[simp] theorem testLine_lineSeq (s : State) (l : Line) : (s.testLine l).lineSeq = s.lineSeq :=
  by
  unfold State.testLine; dsimp only; split; · rfl
  split <;> rfl
@[simp] theorem testLine_attempts (s : State) (l : Line) : (s.testLine l).attempts = s.attempts :=
  by
  unfold State.testLine; dsimp only; split; · rfl
  split <;> rfl
@[simp] theorem testLine_refresh (s : State) (l : Line) : (s.testLine l).refresh = s.refresh :=
  by
  unfold State.testLine; dsimp only; split; · rfl
  split <;> rfl
@[simp] theorem testLine_plan (s : State) (l : Line) : (s.testLine l).plan = s.plan :=
  by
  unfold State.testLine; dsimp only; split; · rfl
  split <;> rfl
@[simp] theorem testLine_counts (s : State) (l : Line) : (s.testLine l).counts = s.counts :=
  by
  unfold State.testLine; dsimp only; split; · rfl
  split <;> rfl
@[simp] theorem testLine_sourceMap (s : State) (l : Line) : (s.testLine l).sourceMap = s.sourceMap :=
  by
  unfold State.testLine; dsimp only; split; · rfl
  split <;> rfl
@[simp] theorem testLine_link (s : State) (l : Line) : (s.testLine l).link = s.link :=
  by
  unfold State.testLine; dsimp only; split; · rfl
  split <;> rfl
@[simp] theorem testLine_segment (s : State) (l : Line) : (s.testLine l).segment = s.segment :=
  by
  unfold State.testLine; dsimp only; split; · rfl
  split <;> rfl
@[simp] theorem testLine_defaultCoupler (s : State) (l : Line) : (s.testLine l).defaultCoupler = s.defaultCoupler :=
  by
  unfold State.testLine; dsimp only; split; · rfl
  split <;> rfl
@[simp] theorem testLine_counters (s : State) (l : Line) : (s.testLine l).counters = s.counters :=
  by
  unfold State.testLine; dsimp only; split; · rfl
  split <;> rfl

/-! ### The rise of an EDGE line -/

@[simp] theorem riseEdge_pending (s : State) (l : Line) : (s.riseEdge l).pending = s.pending :=
  by
  unfold State.riseEdge; split; · rfl
  split <;> rfl
@[simp] theorem riseEdge_mains (s : State) (l : Line) : (s.riseEdge l).mains = s.mains :=
  by
  unfold State.riseEdge; split; · rfl
  split <;> rfl
@[simp] theorem riseEdge_timebase (s : State) (l : Line) : (s.riseEdge l).timebase = s.timebase :=
  by
  unfold State.riseEdge; split; · rfl
  split <;> rfl
@[simp] theorem riseEdge_transmitter (s : State) (l : Line) : (s.riseEdge l).transmitter = s.transmitter :=
  by
  unfold State.riseEdge; split; · rfl
  split <;> rfl
@[simp] theorem riseEdge_receivers (s : State) (l : Line) : (s.riseEdge l).receivers = s.receivers :=
  by
  unfold State.riseEdge; split; · rfl
  split <;> rfl
@[simp] theorem riseEdge_table (s : State) (l : Line) : (s.riseEdge l).table = s.table :=
  by
  unfold State.riseEdge; split; · rfl
  split <;> rfl
@[simp] theorem riseEdge_windows (s : State) (l : Line) : (s.riseEdge l).windows = s.windows :=
  by
  unfold State.riseEdge; split; · rfl
  split <;> rfl
@[simp] theorem riseEdge_groups (s : State) (l : Line) : (s.riseEdge l).groups = s.groups :=
  by
  unfold State.riseEdge; split; · rfl
  split <;> rfl
@[simp] theorem riseEdge_urgent (s : State) (l : Line) : (s.riseEdge l).urgent = s.urgent :=
  by
  unfold State.riseEdge; split; · rfl
  split <;> rfl
@[simp] theorem riseEdge_normal (s : State) (l : Line) : (s.riseEdge l).normal = s.normal :=
  by
  unfold State.riseEdge; split; · rfl
  split <;> rfl
@[simp] theorem riseEdge_arbiter (s : State) (l : Line) : (s.riseEdge l).arbiter = s.arbiter :=
  by
  unfold State.riseEdge; split; · rfl
  split <;> rfl
@[simp] theorem riseEdge_contexts (s : State) (l : Line) : (s.riseEdge l).contexts = s.contexts :=
  by
  unfold State.riseEdge; split; · rfl
  split <;> rfl
@[simp] theorem riseEdge_lineSeq (s : State) (l : Line) : (s.riseEdge l).lineSeq = s.lineSeq :=
  by
  unfold State.riseEdge; split; · rfl
  split <;> rfl
@[simp] theorem riseEdge_attempts (s : State) (l : Line) : (s.riseEdge l).attempts = s.attempts :=
  by
  unfold State.riseEdge; split; · rfl
  split <;> rfl
@[simp] theorem riseEdge_refresh (s : State) (l : Line) : (s.riseEdge l).refresh = s.refresh :=
  by
  unfold State.riseEdge; split; · rfl
  split <;> rfl
@[simp] theorem riseEdge_plan (s : State) (l : Line) : (s.riseEdge l).plan = s.plan :=
  by
  unfold State.riseEdge; split; · rfl
  split <;> rfl
@[simp] theorem riseEdge_counts (s : State) (l : Line) : (s.riseEdge l).counts = s.counts :=
  by
  unfold State.riseEdge; split; · rfl
  split <;> rfl
@[simp] theorem riseEdge_sourceMap (s : State) (l : Line) : (s.riseEdge l).sourceMap = s.sourceMap :=
  by
  unfold State.riseEdge; split; · rfl
  split <;> rfl
@[simp] theorem riseEdge_lines (s : State) (l : Line) : (s.riseEdge l).lines = s.lines :=
  by
  unfold State.riseEdge; split; · rfl
  split <;> rfl
@[simp] theorem riseEdge_link (s : State) (l : Line) : (s.riseEdge l).link = s.link :=
  by
  unfold State.riseEdge; split; · rfl
  split <;> rfl
@[simp] theorem riseEdge_segment (s : State) (l : Line) : (s.riseEdge l).segment = s.segment :=
  by
  unfold State.riseEdge; split; · rfl
  split <;> rfl
@[simp] theorem riseEdge_defaultCoupler (s : State) (l : Line) : (s.riseEdge l).defaultCoupler = s.defaultCoupler :=
  by
  unfold State.riseEdge; split; · rfl
  split <;> rfl

/-! ### A rise -/

@[simp] theorem riseLine_pending (s : State) (l : Line) : (s.riseLine l).pending = s.pending :=
  by
  unfold State.riseLine; split <;> simp
@[simp] theorem riseLine_mains (s : State) (l : Line) : (s.riseLine l).mains = s.mains :=
  by
  unfold State.riseLine; split <;> simp
@[simp] theorem riseLine_timebase (s : State) (l : Line) : (s.riseLine l).timebase = s.timebase :=
  by
  unfold State.riseLine; split <;> simp
@[simp] theorem riseLine_transmitter (s : State) (l : Line) : (s.riseLine l).transmitter = s.transmitter :=
  by
  unfold State.riseLine; split <;> simp
@[simp] theorem riseLine_receivers (s : State) (l : Line) : (s.riseLine l).receivers = s.receivers :=
  by
  unfold State.riseLine; split <;> simp
@[simp] theorem riseLine_table (s : State) (l : Line) : (s.riseLine l).table = s.table :=
  by
  unfold State.riseLine; split <;> simp
@[simp] theorem riseLine_windows (s : State) (l : Line) : (s.riseLine l).windows = s.windows :=
  by
  unfold State.riseLine; split <;> simp
@[simp] theorem riseLine_groups (s : State) (l : Line) : (s.riseLine l).groups = s.groups :=
  by
  unfold State.riseLine; split <;> simp
@[simp] theorem riseLine_urgent (s : State) (l : Line) : (s.riseLine l).urgent = s.urgent :=
  by
  unfold State.riseLine; split <;> simp
@[simp] theorem riseLine_normal (s : State) (l : Line) : (s.riseLine l).normal = s.normal :=
  by
  unfold State.riseLine; split <;> simp
@[simp] theorem riseLine_arbiter (s : State) (l : Line) : (s.riseLine l).arbiter = s.arbiter :=
  by
  unfold State.riseLine; split <;> simp
@[simp] theorem riseLine_contexts (s : State) (l : Line) : (s.riseLine l).contexts = s.contexts :=
  by
  unfold State.riseLine; split <;> simp
@[simp] theorem riseLine_lineSeq (s : State) (l : Line) : (s.riseLine l).lineSeq = s.lineSeq :=
  by
  unfold State.riseLine; split <;> simp
@[simp] theorem riseLine_attempts (s : State) (l : Line) : (s.riseLine l).attempts = s.attempts :=
  by
  unfold State.riseLine; split <;> simp
@[simp] theorem riseLine_refresh (s : State) (l : Line) : (s.riseLine l).refresh = s.refresh :=
  by
  unfold State.riseLine; split <;> simp
@[simp] theorem riseLine_plan (s : State) (l : Line) : (s.riseLine l).plan = s.plan :=
  by
  unfold State.riseLine; split <;> simp
@[simp] theorem riseLine_counts (s : State) (l : Line) : (s.riseLine l).counts = s.counts :=
  by
  unfold State.riseLine; split <;> simp
@[simp] theorem riseLine_sourceMap (s : State) (l : Line) : (s.riseLine l).sourceMap = s.sourceMap :=
  by
  unfold State.riseLine; split <;> simp
@[simp] theorem riseLine_link (s : State) (l : Line) : (s.riseLine l).link = s.link :=
  by
  unfold State.riseLine; split <;> simp
@[simp] theorem riseLine_segment (s : State) (l : Line) : (s.riseLine l).segment = s.segment :=
  by
  unfold State.riseLine; split <;> simp
@[simp] theorem riseLine_defaultCoupler (s : State) (l : Line) : (s.riseLine l).defaultCoupler = s.defaultCoupler :=
  by
  unfold State.riseLine; split <;> simp

/-! ### A change of levels -/

@[simp] theorem noticeChange_pending (b s : State) : (noticeChange b s).pending = s.pending :=
  foldl_keeps (·.pending) _ (fun t l => by split <;> simp) _ s
@[simp] theorem noticeChange_mains (b s : State) : (noticeChange b s).mains = s.mains :=
  foldl_keeps (·.mains) _ (fun t l => by split <;> simp) _ s
@[simp] theorem noticeChange_timebase (b s : State) : (noticeChange b s).timebase = s.timebase :=
  foldl_keeps (·.timebase) _ (fun t l => by split <;> simp) _ s
@[simp] theorem noticeChange_transmitter (b s : State) : (noticeChange b s).transmitter = s.transmitter :=
  foldl_keeps (·.transmitter) _ (fun t l => by split <;> simp) _ s
@[simp] theorem noticeChange_receivers (b s : State) : (noticeChange b s).receivers = s.receivers :=
  foldl_keeps (·.receivers) _ (fun t l => by split <;> simp) _ s
@[simp] theorem noticeChange_table (b s : State) : (noticeChange b s).table = s.table :=
  foldl_keeps (·.table) _ (fun t l => by split <;> simp) _ s
@[simp] theorem noticeChange_windows (b s : State) : (noticeChange b s).windows = s.windows :=
  foldl_keeps (·.windows) _ (fun t l => by split <;> simp) _ s
@[simp] theorem noticeChange_groups (b s : State) : (noticeChange b s).groups = s.groups :=
  foldl_keeps (·.groups) _ (fun t l => by split <;> simp) _ s
@[simp] theorem noticeChange_urgent (b s : State) : (noticeChange b s).urgent = s.urgent :=
  foldl_keeps (·.urgent) _ (fun t l => by split <;> simp) _ s
@[simp] theorem noticeChange_normal (b s : State) : (noticeChange b s).normal = s.normal :=
  foldl_keeps (·.normal) _ (fun t l => by split <;> simp) _ s
@[simp] theorem noticeChange_arbiter (b s : State) : (noticeChange b s).arbiter = s.arbiter :=
  foldl_keeps (·.arbiter) _ (fun t l => by split <;> simp) _ s
@[simp] theorem noticeChange_contexts (b s : State) : (noticeChange b s).contexts = s.contexts :=
  foldl_keeps (·.contexts) _ (fun t l => by split <;> simp) _ s
@[simp] theorem noticeChange_lineSeq (b s : State) : (noticeChange b s).lineSeq = s.lineSeq :=
  foldl_keeps (·.lineSeq) _ (fun t l => by split <;> simp) _ s
@[simp] theorem noticeChange_attempts (b s : State) : (noticeChange b s).attempts = s.attempts :=
  foldl_keeps (·.attempts) _ (fun t l => by split <;> simp) _ s
@[simp] theorem noticeChange_refresh (b s : State) : (noticeChange b s).refresh = s.refresh :=
  foldl_keeps (·.refresh) _ (fun t l => by split <;> simp) _ s
@[simp] theorem noticeChange_plan (b s : State) : (noticeChange b s).plan = s.plan :=
  foldl_keeps (·.plan) _ (fun t l => by split <;> simp) _ s
@[simp] theorem noticeChange_counts (b s : State) : (noticeChange b s).counts = s.counts :=
  foldl_keeps (·.counts) _ (fun t l => by split <;> simp) _ s
@[simp] theorem noticeChange_sourceMap (b s : State) : (noticeChange b s).sourceMap = s.sourceMap :=
  foldl_keeps (·.sourceMap) _ (fun t l => by split <;> simp) _ s
@[simp] theorem noticeChange_link (b s : State) : (noticeChange b s).link = s.link :=
  foldl_keeps (·.link) _ (fun t l => by split <;> simp) _ s
@[simp] theorem noticeChange_segment (b s : State) : (noticeChange b s).segment = s.segment :=
  foldl_keeps (·.segment) _ (fun t l => by split <;> simp) _ s
@[simp] theorem noticeChange_defaultCoupler (b s : State) : (noticeChange b s).defaultCoupler = s.defaultCoupler :=
  foldl_keeps (·.defaultCoupler) _ (fun t l => by split <;> simp) _ s

/-! ### All LEVEL lines -/

@[simp] theorem testLevelLines_pending (s : State) : (s.testLevelLines).pending = s.pending :=
  foldl_keeps (·.pending) _ (fun t l => by split <;> simp) _ s
@[simp] theorem testLevelLines_mains (s : State) : (s.testLevelLines).mains = s.mains :=
  foldl_keeps (·.mains) _ (fun t l => by split <;> simp) _ s
@[simp] theorem testLevelLines_timebase (s : State) : (s.testLevelLines).timebase = s.timebase :=
  foldl_keeps (·.timebase) _ (fun t l => by split <;> simp) _ s
@[simp] theorem testLevelLines_transmitter (s : State) : (s.testLevelLines).transmitter = s.transmitter :=
  foldl_keeps (·.transmitter) _ (fun t l => by split <;> simp) _ s
@[simp] theorem testLevelLines_receivers (s : State) : (s.testLevelLines).receivers = s.receivers :=
  foldl_keeps (·.receivers) _ (fun t l => by split <;> simp) _ s
@[simp] theorem testLevelLines_table (s : State) : (s.testLevelLines).table = s.table :=
  foldl_keeps (·.table) _ (fun t l => by split <;> simp) _ s
@[simp] theorem testLevelLines_windows (s : State) : (s.testLevelLines).windows = s.windows :=
  foldl_keeps (·.windows) _ (fun t l => by split <;> simp) _ s
@[simp] theorem testLevelLines_groups (s : State) : (s.testLevelLines).groups = s.groups :=
  foldl_keeps (·.groups) _ (fun t l => by split <;> simp) _ s
@[simp] theorem testLevelLines_urgent (s : State) : (s.testLevelLines).urgent = s.urgent :=
  foldl_keeps (·.urgent) _ (fun t l => by split <;> simp) _ s
@[simp] theorem testLevelLines_normal (s : State) : (s.testLevelLines).normal = s.normal :=
  foldl_keeps (·.normal) _ (fun t l => by split <;> simp) _ s
@[simp] theorem testLevelLines_arbiter (s : State) : (s.testLevelLines).arbiter = s.arbiter :=
  foldl_keeps (·.arbiter) _ (fun t l => by split <;> simp) _ s
@[simp] theorem testLevelLines_contexts (s : State) : (s.testLevelLines).contexts = s.contexts :=
  foldl_keeps (·.contexts) _ (fun t l => by split <;> simp) _ s
@[simp] theorem testLevelLines_lineSeq (s : State) : (s.testLevelLines).lineSeq = s.lineSeq :=
  foldl_keeps (·.lineSeq) _ (fun t l => by split <;> simp) _ s
@[simp] theorem testLevelLines_attempts (s : State) : (s.testLevelLines).attempts = s.attempts :=
  foldl_keeps (·.attempts) _ (fun t l => by split <;> simp) _ s
@[simp] theorem testLevelLines_refresh (s : State) : (s.testLevelLines).refresh = s.refresh :=
  foldl_keeps (·.refresh) _ (fun t l => by split <;> simp) _ s
@[simp] theorem testLevelLines_plan (s : State) : (s.testLevelLines).plan = s.plan :=
  foldl_keeps (·.plan) _ (fun t l => by split <;> simp) _ s
@[simp] theorem testLevelLines_counts (s : State) : (s.testLevelLines).counts = s.counts :=
  foldl_keeps (·.counts) _ (fun t l => by split <;> simp) _ s
@[simp] theorem testLevelLines_sourceMap (s : State) : (s.testLevelLines).sourceMap = s.sourceMap :=
  foldl_keeps (·.sourceMap) _ (fun t l => by split <;> simp) _ s
@[simp] theorem testLevelLines_link (s : State) : (s.testLevelLines).link = s.link :=
  foldl_keeps (·.link) _ (fun t l => by split <;> simp) _ s
@[simp] theorem testLevelLines_segment (s : State) : (s.testLevelLines).segment = s.segment :=
  foldl_keeps (·.segment) _ (fun t l => by split <;> simp) _ s
@[simp] theorem testLevelLines_defaultCoupler (s : State) : (s.testLevelLines).defaultCoupler = s.defaultCoupler :=
  foldl_keeps (·.defaultCoupler) _ (fun t l => by split <;> simp) _ s
@[simp] theorem testLevelLines_counters (s : State) : (s.testLevelLines).counters = s.counters :=
  foldl_keeps (·.counters) _ (fun t l => by split <;> simp) _ s

/-! ### A record rewritten with its conditions -/

@[simp] theorem changeRecord_pending (s : State) (a : Addr) (f : Record → Record) : (s.changeRecord a f).pending = s.pending :=
  by
  unfold State.changeRecord; split; · rfl
  dsimp only; split <;> simp
@[simp] theorem changeRecord_mains (s : State) (a : Addr) (f : Record → Record) : (s.changeRecord a f).mains = s.mains :=
  by
  unfold State.changeRecord; split; · rfl
  dsimp only; split <;> simp
@[simp] theorem changeRecord_timebase (s : State) (a : Addr) (f : Record → Record) : (s.changeRecord a f).timebase = s.timebase :=
  by
  unfold State.changeRecord; split; · rfl
  dsimp only; split <;> simp
@[simp] theorem changeRecord_transmitter (s : State) (a : Addr) (f : Record → Record) : (s.changeRecord a f).transmitter = s.transmitter :=
  by
  unfold State.changeRecord; split; · rfl
  dsimp only; split <;> simp
@[simp] theorem changeRecord_receivers (s : State) (a : Addr) (f : Record → Record) : (s.changeRecord a f).receivers = s.receivers :=
  by
  unfold State.changeRecord; split; · rfl
  dsimp only; split <;> simp
@[simp] theorem changeRecord_windows (s : State) (a : Addr) (f : Record → Record) : (s.changeRecord a f).windows = s.windows :=
  by
  unfold State.changeRecord; split; · rfl
  dsimp only; split <;> simp
@[simp] theorem changeRecord_groups (s : State) (a : Addr) (f : Record → Record) : (s.changeRecord a f).groups = s.groups :=
  by
  unfold State.changeRecord; split; · rfl
  dsimp only; split <;> simp
@[simp] theorem changeRecord_urgent (s : State) (a : Addr) (f : Record → Record) : (s.changeRecord a f).urgent = s.urgent :=
  by
  unfold State.changeRecord; split; · rfl
  dsimp only; split <;> simp
@[simp] theorem changeRecord_normal (s : State) (a : Addr) (f : Record → Record) : (s.changeRecord a f).normal = s.normal :=
  by
  unfold State.changeRecord; split; · rfl
  dsimp only; split <;> simp
@[simp] theorem changeRecord_arbiter (s : State) (a : Addr) (f : Record → Record) : (s.changeRecord a f).arbiter = s.arbiter :=
  by
  unfold State.changeRecord; split; · rfl
  dsimp only; split <;> simp
@[simp] theorem changeRecord_contexts (s : State) (a : Addr) (f : Record → Record) : (s.changeRecord a f).contexts = s.contexts :=
  by
  unfold State.changeRecord; split; · rfl
  dsimp only; split <;> simp
@[simp] theorem changeRecord_lineSeq (s : State) (a : Addr) (f : Record → Record) : (s.changeRecord a f).lineSeq = s.lineSeq :=
  by
  unfold State.changeRecord; split; · rfl
  dsimp only; split <;> simp
@[simp] theorem changeRecord_attempts (s : State) (a : Addr) (f : Record → Record) : (s.changeRecord a f).attempts = s.attempts :=
  by
  unfold State.changeRecord; split; · rfl
  dsimp only; split <;> simp
@[simp] theorem changeRecord_refresh (s : State) (a : Addr) (f : Record → Record) : (s.changeRecord a f).refresh = s.refresh :=
  by
  unfold State.changeRecord; split; · rfl
  dsimp only; split <;> simp
@[simp] theorem changeRecord_plan (s : State) (a : Addr) (f : Record → Record) : (s.changeRecord a f).plan = s.plan :=
  by
  unfold State.changeRecord; split; · rfl
  dsimp only; split <;> simp
@[simp] theorem changeRecord_sourceMap (s : State) (a : Addr) (f : Record → Record) : (s.changeRecord a f).sourceMap = s.sourceMap :=
  by
  unfold State.changeRecord; split; · rfl
  dsimp only; split <;> simp
@[simp] theorem changeRecord_link (s : State) (a : Addr) (f : Record → Record) : (s.changeRecord a f).link = s.link :=
  by
  unfold State.changeRecord; split; · rfl
  dsimp only; split <;> simp
@[simp] theorem changeRecord_segment (s : State) (a : Addr) (f : Record → Record) : (s.changeRecord a f).segment = s.segment :=
  by
  unfold State.changeRecord; split; · rfl
  dsimp only; split <;> simp
@[simp] theorem changeRecord_defaultCoupler (s : State) (a : Addr) (f : Record → Record) : (s.changeRecord a f).defaultCoupler = s.defaultCoupler :=
  by
  unfold State.changeRecord; split; · rfl
  dsimp only; split <;> simp

/-! ### REFRESH_BACKLOG -/

@[simp] theorem evaluateBacklog_pending (s : State) : (s.evaluateBacklog).pending = s.pending :=
  by
  unfold State.evaluateBacklog; split <;> simp
@[simp] theorem evaluateBacklog_mains (s : State) : (s.evaluateBacklog).mains = s.mains :=
  by
  unfold State.evaluateBacklog; split <;> simp
@[simp] theorem evaluateBacklog_timebase (s : State) : (s.evaluateBacklog).timebase = s.timebase :=
  by
  unfold State.evaluateBacklog; split <;> simp
@[simp] theorem evaluateBacklog_transmitter (s : State) : (s.evaluateBacklog).transmitter = s.transmitter :=
  by
  unfold State.evaluateBacklog; split <;> simp
@[simp] theorem evaluateBacklog_receivers (s : State) : (s.evaluateBacklog).receivers = s.receivers :=
  by
  unfold State.evaluateBacklog; split <;> simp
@[simp] theorem evaluateBacklog_table (s : State) : (s.evaluateBacklog).table = s.table :=
  by
  unfold State.evaluateBacklog; split <;> simp
@[simp] theorem evaluateBacklog_windows (s : State) : (s.evaluateBacklog).windows = s.windows :=
  by
  unfold State.evaluateBacklog; split <;> simp
@[simp] theorem evaluateBacklog_groups (s : State) : (s.evaluateBacklog).groups = s.groups :=
  by
  unfold State.evaluateBacklog; split <;> simp
@[simp] theorem evaluateBacklog_urgent (s : State) : (s.evaluateBacklog).urgent = s.urgent :=
  by
  unfold State.evaluateBacklog; split <;> simp
@[simp] theorem evaluateBacklog_normal (s : State) : (s.evaluateBacklog).normal = s.normal :=
  by
  unfold State.evaluateBacklog; split <;> simp
@[simp] theorem evaluateBacklog_arbiter (s : State) : (s.evaluateBacklog).arbiter = s.arbiter :=
  by
  unfold State.evaluateBacklog; split <;> simp
@[simp] theorem evaluateBacklog_contexts (s : State) : (s.evaluateBacklog).contexts = s.contexts :=
  by
  unfold State.evaluateBacklog; split <;> simp
@[simp] theorem evaluateBacklog_lineSeq (s : State) : (s.evaluateBacklog).lineSeq = s.lineSeq :=
  by
  unfold State.evaluateBacklog; split <;> simp
@[simp] theorem evaluateBacklog_attempts (s : State) : (s.evaluateBacklog).attempts = s.attempts :=
  by
  unfold State.evaluateBacklog; split <;> simp
@[simp] theorem evaluateBacklog_plan (s : State) : (s.evaluateBacklog).plan = s.plan :=
  by
  unfold State.evaluateBacklog; split <;> simp
@[simp] theorem evaluateBacklog_counts (s : State) : (s.evaluateBacklog).counts = s.counts :=
  by
  unfold State.evaluateBacklog; split <;> simp
@[simp] theorem evaluateBacklog_sourceMap (s : State) : (s.evaluateBacklog).sourceMap = s.sourceMap :=
  by
  unfold State.evaluateBacklog; split <;> simp
@[simp] theorem evaluateBacklog_link (s : State) : (s.evaluateBacklog).link = s.link :=
  by
  unfold State.evaluateBacklog; split <;> simp
@[simp] theorem evaluateBacklog_segment (s : State) : (s.evaluateBacklog).segment = s.segment :=
  by
  unfold State.evaluateBacklog; split <;> simp
@[simp] theorem evaluateBacklog_defaultCoupler (s : State) : (s.evaluateBacklog).defaultCoupler = s.defaultCoupler :=
  by
  unfold State.evaluateBacklog; split <;> simp

/-! ### B and M -/

@[simp] theorem setOwed_pending (s : State) (b m : Nat) : (s.setOwed b m).pending = s.pending :=
  by
  simp [State.setOwed]
@[simp] theorem setOwed_mains (s : State) (b m : Nat) : (s.setOwed b m).mains = s.mains :=
  by
  simp [State.setOwed]
@[simp] theorem setOwed_timebase (s : State) (b m : Nat) : (s.setOwed b m).timebase = s.timebase :=
  by
  simp [State.setOwed]
@[simp] theorem setOwed_transmitter (s : State) (b m : Nat) : (s.setOwed b m).transmitter = s.transmitter :=
  by
  simp [State.setOwed]
@[simp] theorem setOwed_receivers (s : State) (b m : Nat) : (s.setOwed b m).receivers = s.receivers :=
  by
  simp [State.setOwed]
@[simp] theorem setOwed_table (s : State) (b m : Nat) : (s.setOwed b m).table = s.table :=
  by
  simp [State.setOwed]
@[simp] theorem setOwed_windows (s : State) (b m : Nat) : (s.setOwed b m).windows = s.windows :=
  by
  simp [State.setOwed]
@[simp] theorem setOwed_groups (s : State) (b m : Nat) : (s.setOwed b m).groups = s.groups :=
  by
  simp [State.setOwed]
@[simp] theorem setOwed_urgent (s : State) (b m : Nat) : (s.setOwed b m).urgent = s.urgent :=
  by
  simp [State.setOwed]
@[simp] theorem setOwed_normal (s : State) (b m : Nat) : (s.setOwed b m).normal = s.normal :=
  by
  simp [State.setOwed]
@[simp] theorem setOwed_arbiter (s : State) (b m : Nat) : (s.setOwed b m).arbiter = s.arbiter :=
  by
  simp [State.setOwed]
@[simp] theorem setOwed_contexts (s : State) (b m : Nat) : (s.setOwed b m).contexts = s.contexts :=
  by
  simp [State.setOwed]
@[simp] theorem setOwed_lineSeq (s : State) (b m : Nat) : (s.setOwed b m).lineSeq = s.lineSeq :=
  by
  simp [State.setOwed]
@[simp] theorem setOwed_attempts (s : State) (b m : Nat) : (s.setOwed b m).attempts = s.attempts :=
  by
  simp [State.setOwed]
@[simp] theorem setOwed_plan (s : State) (b m : Nat) : (s.setOwed b m).plan = s.plan :=
  by
  simp [State.setOwed]
@[simp] theorem setOwed_counts (s : State) (b m : Nat) : (s.setOwed b m).counts = s.counts :=
  by
  simp [State.setOwed]
@[simp] theorem setOwed_sourceMap (s : State) (b m : Nat) : (s.setOwed b m).sourceMap = s.sourceMap :=
  by
  simp [State.setOwed]
@[simp] theorem setOwed_link (s : State) (b m : Nat) : (s.setOwed b m).link = s.link :=
  by
  simp [State.setOwed]
@[simp] theorem setOwed_segment (s : State) (b m : Nat) : (s.setOwed b m).segment = s.segment :=
  by
  simp [State.setOwed]
@[simp] theorem setOwed_defaultCoupler (s : State) (b m : Nat) : (s.setOwed b m).defaultCoupler = s.defaultCoupler :=
  by
  simp [State.setOwed]

/-! ### A move between queues -/

@[simp] theorem raiseEntry_pending (s : State) (p : Entry → Bool) (n : Nat) (o : Origin) : (s.raiseEntry p n o).pending = s.pending :=
  by
  unfold State.raiseEntry; split; · rfl
  split <;> rfl
@[simp] theorem raiseEntry_mains (s : State) (p : Entry → Bool) (n : Nat) (o : Origin) : (s.raiseEntry p n o).mains = s.mains :=
  by
  unfold State.raiseEntry; split; · rfl
  split <;> rfl
@[simp] theorem raiseEntry_timebase (s : State) (p : Entry → Bool) (n : Nat) (o : Origin) : (s.raiseEntry p n o).timebase = s.timebase :=
  by
  unfold State.raiseEntry; split; · rfl
  split <;> rfl
@[simp] theorem raiseEntry_transmitter (s : State) (p : Entry → Bool) (n : Nat) (o : Origin) : (s.raiseEntry p n o).transmitter = s.transmitter :=
  by
  unfold State.raiseEntry; split; · rfl
  split <;> rfl
@[simp] theorem raiseEntry_receivers (s : State) (p : Entry → Bool) (n : Nat) (o : Origin) : (s.raiseEntry p n o).receivers = s.receivers :=
  by
  unfold State.raiseEntry; split; · rfl
  split <;> rfl
@[simp] theorem raiseEntry_table (s : State) (p : Entry → Bool) (n : Nat) (o : Origin) : (s.raiseEntry p n o).table = s.table :=
  by
  unfold State.raiseEntry; split; · rfl
  split <;> rfl
@[simp] theorem raiseEntry_windows (s : State) (p : Entry → Bool) (n : Nat) (o : Origin) : (s.raiseEntry p n o).windows = s.windows :=
  by
  unfold State.raiseEntry; split; · rfl
  split <;> rfl
@[simp] theorem raiseEntry_groups (s : State) (p : Entry → Bool) (n : Nat) (o : Origin) : (s.raiseEntry p n o).groups = s.groups :=
  by
  unfold State.raiseEntry; split; · rfl
  split <;> rfl
@[simp] theorem raiseEntry_arbiter (s : State) (p : Entry → Bool) (n : Nat) (o : Origin) : (s.raiseEntry p n o).arbiter = s.arbiter :=
  by
  unfold State.raiseEntry; split; · rfl
  split <;> rfl
@[simp] theorem raiseEntry_contexts (s : State) (p : Entry → Bool) (n : Nat) (o : Origin) : (s.raiseEntry p n o).contexts = s.contexts :=
  by
  unfold State.raiseEntry; split; · rfl
  split <;> rfl
@[simp] theorem raiseEntry_lineSeq (s : State) (p : Entry → Bool) (n : Nat) (o : Origin) : (s.raiseEntry p n o).lineSeq = s.lineSeq :=
  by
  unfold State.raiseEntry; split; · rfl
  split <;> rfl
@[simp] theorem raiseEntry_attempts (s : State) (p : Entry → Bool) (n : Nat) (o : Origin) : (s.raiseEntry p n o).attempts = s.attempts :=
  by
  unfold State.raiseEntry; split; · rfl
  split <;> rfl
@[simp] theorem raiseEntry_refresh (s : State) (p : Entry → Bool) (n : Nat) (o : Origin) : (s.raiseEntry p n o).refresh = s.refresh :=
  by
  unfold State.raiseEntry; split; · rfl
  split <;> rfl
@[simp] theorem raiseEntry_plan (s : State) (p : Entry → Bool) (n : Nat) (o : Origin) : (s.raiseEntry p n o).plan = s.plan :=
  by
  unfold State.raiseEntry; split; · rfl
  split <;> rfl
@[simp] theorem raiseEntry_counts (s : State) (p : Entry → Bool) (n : Nat) (o : Origin) : (s.raiseEntry p n o).counts = s.counts :=
  by
  unfold State.raiseEntry; split; · rfl
  split <;> rfl
@[simp] theorem raiseEntry_sourceMap (s : State) (p : Entry → Bool) (n : Nat) (o : Origin) : (s.raiseEntry p n o).sourceMap = s.sourceMap :=
  by
  unfold State.raiseEntry; split; · rfl
  split <;> rfl
@[simp] theorem raiseEntry_lines (s : State) (p : Entry → Bool) (n : Nat) (o : Origin) : (s.raiseEntry p n o).lines = s.lines :=
  by
  unfold State.raiseEntry; split; · rfl
  split <;> rfl
@[simp] theorem raiseEntry_fifo (s : State) (p : Entry → Bool) (n : Nat) (o : Origin) : (s.raiseEntry p n o).fifo = s.fifo :=
  by
  unfold State.raiseEntry; split; · rfl
  split <;> rfl
@[simp] theorem raiseEntry_link (s : State) (p : Entry → Bool) (n : Nat) (o : Origin) : (s.raiseEntry p n o).link = s.link :=
  by
  unfold State.raiseEntry; split; · rfl
  split <;> rfl
@[simp] theorem raiseEntry_segment (s : State) (p : Entry → Bool) (n : Nat) (o : Origin) : (s.raiseEntry p n o).segment = s.segment :=
  by
  unfold State.raiseEntry; split; · rfl
  split <;> rfl
@[simp] theorem raiseEntry_defaultCoupler (s : State) (p : Entry → Bool) (n : Nat) (o : Origin) : (s.raiseEntry p n o).defaultCoupler = s.defaultCoupler :=
  by
  unfold State.raiseEntry; split; · rfl
  split <;> rfl
@[simp] theorem raiseEntry_counters (s : State) (p : Entry → Bool) (n : Nat) (o : Origin) : (s.raiseEntry p n o).counters = s.counters :=
  by
  unfold State.raiseEntry; split; · rfl
  split <;> rfl

/-! ### Deliveries and statements -/

theorem updRecord_frame (s : State) (a : Addr) (f : Record → Record) : DeliveryFrame s (s.updRecord a f) := by
  constructor <;> rfl

theorem updAll_frame (s : State) (f : Record → Record) : DeliveryFrame s (s.updAll f) := by constructor <;> rfl

theorem insertEntry_frame (s : State) (q : QueueId) (e : Entry) : DeliveryFrame s (s.insertEntry q e) := by
  cases q <;> constructor <;> rfl

theorem dropEntries_frame (s : State) (p : Entry → Bool) : DeliveryFrame s (s.dropEntries p) := by
  constructor <;> rfl

theorem countQueueFull_frame (s : State) : DeliveryFrame s s.countQueueFull := by constructor <;> rfl

theorem countStranded_frame (s : State) : DeliveryFrame s s.countStranded := by constructor <;> rfl

theorem countPlanMiss_frame (s : State) : DeliveryFrame s s.countPlanMiss := by constructor <;> rfl

theorem raiseEntry_frame (s : State) (p : Entry → Bool) (n : Nat) (o : Origin) :
    DeliveryFrame s (s.raiseEntry p n o) := by
  constructor <;> simp

theorem placeDelivery_frame (a : Addr) (p : Nat) (o : Origin) (s : State) :
    DeliveryFrame s (placeDelivery a p o s).1 := by
  unfold placeDelivery
  split
  · exact .refl s
  split
  · split
    · exact (insertEntry_frame s _ _).trans (updRecord_frame _ _ _)
    · exact ((updRecord_frame s _ _).trans (countQueueFull_frame _)).trans (countStranded_frame _)
  · exact updRecord_frame s _ _

theorem coverStatement_frame (a : Addr) (p : Nat) (o : Origin) (s : State) :
    DeliveryFrame s (coverStatement a p o s).1 := by
  unfold coverStatement
  split
  · exact .refl s
  split
  · exact updRecord_frame s _ _
  split
  · exact (raiseEntry_frame s _ _ _).trans (updRecord_frame _ _ _)
  · exact placeDelivery_frame a p o s

theorem stateTariff_frame (a : Addr) (t : Tariff) (p : Nat) (o : Origin) (s : State) :
    DeliveryFrame s (stateTariff a t p o s).1 :=
  (updRecord_frame s _ _).trans (coverStatement_frame a p o _)

theorem setPass_frame (r : Record) (t : Tariff) (p : Nat) (o : Origin) (s : State) :
    DeliveryFrame s (setPass r t p o s).1 := by
  unfold setPass
  dsimp only
  split
  · exact .refl s
  split
  · refine DeliveryFrame.trans ?_ (raiseEntry_frame _ _ _ _)
    constructor <;> rfl
  split
  · exact insertEntry_frame s _ _
  · exact countQueueFull_frame s

theorem setOne_frame (a : Addr) (t : Tariff) (p : Nat) (o : Origin) (s : State) :
    DeliveryFrame s (setOne a t p o s).1 := by
  unfold setOne
  split
  · exact .refl s
  split
  · exact setPass_frame _ t p o s
  split
  · exact updRecord_frame s _ _
  split
  · exact .refl s
  · exact stateTariff_frame a t p o s

theorem setRangeUnit_frame (t : Tariff) (p : Nat) (o : Origin) (w : State × WalkCounts) (a : Addr) :
    DeliveryFrame w.1 (setRangeUnit t p o w a).1 := by
  unfold setRangeUnit
  dsimp only
  split
  · exact .refl _
  · split <;> exact setOne_frame a t p o w.1

theorem setRangeWalk_frame (g : Segment) (u : Byte) (n : Nat) (t : Tariff) (p : Nat) (o : Origin) (s : State) :
    DeliveryFrame s (setRangeWalk g u n t p o s).1 :=
  foldl_relates (fun x y : State × WalkCounts => DeliveryFrame x.1 y.1) (fun _ => .refl _)
    (fun h k => DeliveryFrame.trans h k) _ (fun w a => setRangeUnit_frame t p o w a) _ (s, _)

theorem overrideOne_frame (a : Addr) (t : Tariff) (m p : Nat) (o : Origin) (s : State) :
    DeliveryFrame s (overrideOne a t m p o s).state := by
  unfold overrideOne
  split
  · exact .refl s
  split <;> first
    | exact .refl s
    | (dsimp only
       split
       · exact updRecord_frame s _ _
       · exact (updRecord_frame s _ _).trans (stateTariff_frame a t p o _))

theorem endOverrideOf_frame (a : Addr) (s : State) : DeliveryFrame s (endOverrideOf a s).1 := by
  unfold endOverrideOf
  split
  · exact .refl s
  split
  · exact .refl s
  dsimp only
  split
  · exact updRecord_frame s _ _
  · exact (updRecord_frame s _ _).trans (stateTariff_frame a _ _ _ _)

theorem takeOverrideEnds_frame (s : State) : DeliveryFrame s (takeOverrideEnds s) :=
  foldl_relates DeliveryFrame .refl DeliveryFrame.trans _ (fun t a => endOverrideOf_frame a t) _ s

theorem endMember_frame (w : EndWalk) (r : Record) : DeliveryFrame w.state (endMember w r).state :=
  endOverrideOf_frame r.addr w.state

theorem pushEntry_frame (s : State) (a : Addr) (p : Nat) : DeliveryFrame s (s.pushEntry a p) :=
  (insertEntry_frame s _ _).trans (updRecord_frame _ _ _)

theorem pushOne_frame (p : Nat) (w : State × PushCounts) (a : Addr) : DeliveryFrame w.1 (pushOne p w a).1 := by
  unfold pushOne
  dsimp only
  split
  · exact .refl _
  split
  · split
    · exact .refl _
    · split
      · exact pushEntry_frame w.1 a p
      · exact .refl _
  · exact .refl _

/-! ### Groups -/

theorem memberTariff_frame (g : Group) (t : Tariff) (r : Record) (w : MemberWalk) :
    DeliveryFrame w.state (memberTariff g t r w).state := by
  unfold memberTariff
  split
  · exact .refl _
  split
  · exact updRecord_frame w.state _ _
  · exact (dropEntries_frame w.state _).trans (updRecord_frame _ _ _)

theorem treatMember_frame (g : Group) (t : Tariff) (w : MemberWalk) (r : Record) :
    DeliveryFrame w.state (treatMember g t w r).state := by
  unfold treatMember
  split
  · exact updRecord_frame w.state _ _
  · exact memberTariff_frame g t r w

theorem overrideMember_frame (g : Group) (t : Tariff) (e : Uptime) (p : Nat) (x : GroupOverride) (r : Record) :
    DeliveryFrame x.walk.state (overrideMember g t e p x r).walk.state := by
  unfold overrideMember
  split
  · exact .refl _
  · exact (updRecord_frame x.walk.state r.addr _).trans
      (memberTariff_frame g t r { x.walk with state := x.walk.state.updRecord r.addr _ })

theorem strandMember_frame (s : State) (a : Addr) : DeliveryFrame s (strandMember s a) := by
  unfold strandMember
  split
  · exact .refl s
  dsimp only
  split
  · exact (updRecord_frame s _ _).trans (countStranded_frame _)
  · exact updRecord_frame s _ _

theorem settleGroup_frame (g : Group) (p : Nat) (o : Origin) (l : List Addr) (s : State) :
    DeliveryFrame s (settleGroup g p o l s).1 := by
  unfold settleGroup
  split
  · exact raiseEntry_frame s _ _ _
  split
  · exact insertEntry_frame s _ _
  · exact (countQueueFull_frame s).trans
      (foldl_relates DeliveryFrame .refl DeliveryFrame.trans _ strandMember_frame l _)

/-- SET_GROUP and its firing write the group tariff, and else what a delivery does. -/
theorem setGroupTo_frame (g : Group) (t : Tariff) (p : Nat) (o : Origin) (s : State) :
    DeliveryFrame (s.setGroupTariff g t) (setGroupTo g t p o s).walk.state := by
  unfold setGroupTo
  dsimp only
  split
  · exact .refl _
  · exact (foldl_relates (fun x y : MemberWalk => DeliveryFrame x.state y.state) (fun _ => .refl _)
      (fun h k => DeliveryFrame.trans h k) _ (treatMember_frame g t) _ (MemberWalk.start _)).trans (settleGroup_frame _ _ _ _ _)

/-- OVERRIDE of a group writes the group tariff, and else what a delivery does. -/
theorem overrideGroupTo_frame (g : Group) (t : Tariff) (m p : Nat) (o : Origin) (s : State) :
    DeliveryFrame (s.setGroupTariff g t) (overrideGroupTo g t m p o s).done.walk.state := by
  unfold overrideGroupTo
  dsimp only
  split
  · exact .refl _
  · refine DeliveryFrame.trans ?_ (settleGroup_frame _ _ _ _ _)
    exact foldl_relates (fun x y : GroupOverride => DeliveryFrame x.walk.state y.walk.state) (fun _ => .refl _)
      (fun h k => DeliveryFrame.trans h k) _ (overrideMember_frame g t _ p) _
      { walk := MemberWalk.start (s.setGroupTariff g t), started := 0, extended := 0, skipped := 0 }

theorem placeAfterFrame_frame (how : FramePlacing) (a : Addr) (p : Nat) (s : State) :
    DeliveryFrame s (placeAfterFrame how a p s) := by
  cases how
  · exact placeDelivery_frame a p _ s
  · exact updRecord_frame s _ _

theorem disturbedBy_frame (how : FramePlacing) (a : Addr) (p : Nat) (i : Image) (s : State) :
    DeliveryFrame s (disturbedBy how a p i s) := by
  unfold disturbedBy
  split
  · exact .refl s
  split
  · exact updRecord_frame s _ _
  · exact placeAfterFrame_frame how a p s

theorem frameReached_frame (how : FramePlacing) (t : Tariff) (q : Seq) (p : Nat) (r : Record) (s : State) :
    DeliveryFrame s (frameReached how t q p r s) := by
  unfold frameReached
  dsimp only
  have held := updRecord_frame s r.addr fun x => { x with held := some t }
  split
  · split
    · split
      · exact held
      · exact held.trans (updRecord_frame _ _ _)
    · exact held
  · split
    · exact held
    · exact held.trans (disturbedBy_frame how _ p _ _)

theorem frameMissed_frame (how : FramePlacing) (g : Group) (t : Tariff) (p : Nat) (r : Record) (s : State) :
    DeliveryFrame s (frameMissed how g t p r s) := by
  unfold frameMissed
  split
  · exact updRecord_frame s _ _
  split
  · exact placeAfterFrame_frame how _ p s
  · exact .refl s

theorem frameEndsFor_frame (how : FramePlacing) (g : Group) (t : Tariff) (q : Seq) (p : Nat) (s : State) (a : Addr) :
    DeliveryFrame s (frameEndsFor how g t q p s a) := by
  unfold frameEndsFor
  split
  · exact .refl s
  split
  · exact .refl s
  split
  · exact frameReached_frame how t q p _ s
  · exact frameMissed_frame how g t p _ s

theorem frameEnds_frame (how : FramePlacing) (g : Group) (t : Tariff) (q : Seq) (p : Nat) (s : State) :
    DeliveryFrame s (frameEnds how g t q p s) :=
  (foldl_relates DeliveryFrame .refl DeliveryFrame.trans _ (frameEndsFor_frame how g t q p) _ s).trans
    (updAll_frame _ _)

/-! ### Conditions, ends of transactions -/

theorem changeRecord_frame (s : State) (a : Addr) (f : Record → Record) : RecordFrame s (s.changeRecord a f) := by
  constructor <;> simp

theorem placeDecided_frame (s : State) (a : Addr) (p : Nat) (d : Decision) : DeliveryFrame s (s.placeDecided a p d) := by
  cases d
  case deliver => exact placeDelivery_frame a p _ s
  all_goals exact .refl s

theorem applyAck_frame (c : Context) (a : Addr) (f : AckFrame) (h : Phase) (q : Quality) (s : State) :
    RecordFrame s (applyAck c a f h q s) := by
  unfold applyAck
  split
  · exact .refl s
  · exact (changeRecord_frame s _ _).trans (placeDecided_frame _ _ _ _).record

theorem countFailure_frame (s : State) (f : Failure) : DeliveryFrame s (s.countFailure f) := by
  cases f <;> constructor <;> rfl

theorem retryAttempt_frame (a : Addr) (q : QueueId) (w : Work) (p : Nat) (l : List Addr) (s : State) :
    DeliveryFrame s (retryAttempt a q w p l s) := by
  unfold retryAttempt
  split
  · exact (insertEntry_frame s _ _).trans (updRecord_frame _ _ _)
  · exact (countStranded_frame s).trans (updRecord_frame _ _ _)

theorem settleFailure_frame (c : Context) (a : Addr) (s : State) : DeliveryFrame s (settleFailure c a s) := by
  unfold settleFailure
  split
  · exact .refl s
  split
  · exact placeDecided_frame s _ _ _
  split
  · exact retryAttempt_frame _ _ _ _ _ s
  all_goals exact updRecord_frame s _ _

theorem applyFailure_frame (c : Context) (a : Addr) (f : Failure) (s : State) :
    RecordFrame s (applyFailure c a f s) :=
  ((countFailure_frame s f).record.trans (changeRecord_frame _ _ _)).trans (settleFailure_frame c a _).record

theorem applyResult_frame (c : Context) (a : Addr) (r : LineResult) (s : State) :
    RecordFrame s (applyResult c a r s) := by
  cases r
  · exact applyAck_frame c a _ _ _ s
  all_goals exact applyFailure_frame c a _ s

theorem setOwed_frame (s : State) (b m : Nat) : EndFrame s (s.setOwed b m) := by constructor <;> simp

theorem accountSource_frame (s : State) (x : Source) : EndFrame s (s.accountSource x) := by
  cases x
  · exact .refl s
  · exact .refl s
  · show EndFrame s s.accountRefresh
    unfold State.accountRefresh
    split
    · exact .refl s
    · refine EndFrame.trans ?_ (setOwed_frame _ _ _)
      constructor <;> rfl

theorem releaseCoupler_frame (s : State) (c : Context) (n : Nat) : EndFrame s (s.releaseCoupler c n) := by
  constructor <;> rfl

theorem endIndividual_frame (c : Context) (a : Addr) (s : State) : EndFrame s (endIndividual c a s) := by
  unfold endIndividual
  dsimp only
  refine EndFrame.trans ?_ (releaseCoupler_frame _ _ _)
  refine EndFrame.trans ?_ (accountSource_frame _ _)
  refine EndFrame.trans ?_ (updRecord_frame _ _ _).record.ends
  refine EndFrame.trans ?_ (applyResult_frame c a _ _).ends
  constructor <;> rfl

theorem continueScrub_frame (c : Context) (a : Addr) (f : AckFrame) (h : Phase) (q : Quality) (s : State) :
    EndFrame s (continueScrub c a f h q s) := by
  unfold continueScrub
  dsimp only
  have recorded := (changeRecord_frame s a fun x => (x.acked f h q none).decided .repair).ends
  split
  · exact recorded
  · refine recorded.trans ?_
    constructor <;> rfl

theorem endGroupFrame_frame (c : Context) (g : Group) (t : Tariff) (s : State) : EndFrame s (endGroupFrame c g t s) := by
  unfold endGroupFrame
  dsimp only
  refine EndFrame.trans ?_ (releaseCoupler_frame _ _ _)
  refine EndFrame.trans ?_ (frameEnds_frame _ _ _ _ _ _).record.ends
  constructor <;> rfl

theorem decideScrubPart_frame (c : Context) (a : Addr) (s : State) : EndFrame s (decideScrubPart c a s) := by
  unfold decideScrubPart
  split
  · split
    · exact continueScrub_frame c a _ _ _ s
    · exact endIndividual_frame c a s
  · exact endIndividual_frame c a s

/-- One end, whatever its kind, leaves all that EndFrame names. -/
theorem takeNextEnd_frame (s : State) : EndFrame s (takeNextEnd s) := by
  unfold takeNextEnd
  split
  · exact .refl s
  split
  · exact endGroupFrame_frame _ _ _ s
  · exact decideScrubPart_frame _ _ s
  all_goals exact endIndividual_frame _ _ s

theorem takeEnds_frame (n : Nat) (s : State) : EndFrame s (takeEnds n s) := by
  induction n generalizing s with
  | zero => exact .refl s
  | succ n ih => exact (takeNextEnd_frame s).trans (ih _)

/-! ### FORGET, RETIRE -/

/-- FORGET of one record leaves all that EndFrame names, the Refresh Controller and the arbiter. -/
theorem forgetOne_frame (a : Addr) (s : State) :
    EndFrame s (forgetOne a s) ∧ (forgetOne a s).refresh = s.refresh ∧ (forgetOne a s).arbiter = s.arbiter := by
  refine ⟨?_, by simp [forgetOne], by simp [forgetOne]⟩
  constructor <;> simp [forgetOne]

theorem retireRecord_frame (a : Addr) (s : State) : RecordFrame s (retireRecord a s) := by
  constructor <;> simp [retireRecord]

end Sys2Proof.Machine
end

