-- ==== Sys2Proof/Laws/Records.lean ====
section
/-! SUPPORT. Looking a record up after an update of the table, and what placing a delivery or stating a tariff does to
the record, in each case of R48 and R50. -/

namespace Sys2Proof.Machine

/-! ## Looking up -/

theorem lookup_congr {s t : State} (h : t.table = s.table) (a : Addr) : t.lookup a = s.lookup a := by
  simp [State.lookup, h]

theorem lookup_addr {s : State} {a : Addr} {r : Record} (h : s.lookup a = some r) : r.addr = a := by
  simpa using List.find?_some h

theorem lookup_mem {s : State} {a : Addr} {r : Record} (h : s.lookup a = some r) : r ∈ s.table :=
  List.mem_of_find?_eq_some h

theorem lookup_isSome_of_mem {s : State} {r : Record} (h : r ∈ s.table) : (s.lookup r.addr).isSome = true := by
  simp only [State.lookup, List.find?_isSome]
  exact ⟨r, h, by simp⟩

/-- With distinct addresses the record found is the record. -/
theorem lookup_of_mem {s : State} (nodup : s.addrs.Nodup) {r : Record} (h : r ∈ s.table) :
    s.lookup r.addr = some r := by
  unfold State.addrs at nodup
  unfold State.lookup
  revert nodup h
  generalize s.table = l
  intro nodup h
  induction l with
  | nil => cases h
  | cons x xs ih =>
    rw [List.map_cons, List.nodup_cons] at nodup
    rcases List.mem_cons.mp h with rfl | h'
    · simp
    · have ne : x.addr ≠ r.addr := fun e => nodup.1 (e ▸ List.mem_map_of_mem h')
      rw [List.find?_cons_of_neg (by simpa using ne)]
      exact ih nodup.2 h'

theorem lookup_none_iff {s : State} {a : Addr} : s.lookup a = none ↔ ∀ r ∈ s.table, r.addr ≠ a := by
  simp [State.lookup]

/-- A rewriting that keeps addresses commutes with looking up. -/
theorem lookup_map {l : List Record} {f : Record → Record} (hf : ∀ r, (f r).addr = r.addr) (a : Addr) :
    (l.map f).find? (fun r => r.addr == a) = (l.find? fun r => r.addr == a).map f := by
  rw [List.find?_map]
  congr 1
  congr 1
  funext r
  simp [hf]

theorem lookup_updAll (s : State) {f : Record → Record} (hf : ∀ r, (f r).addr = r.addr) (a : Addr) :
    (s.updAll f).lookup a = (s.lookup a).map f := lookup_map hf a

theorem lookup_updRecord (s : State) {f : Record → Record} (hf : ∀ r, (f r).addr = r.addr) (a b : Addr) :
    (s.updRecord a f).lookup b = (s.lookup b).map fun r => if r.addr = a then f r else r := by
  refine lookup_map (fun r => ?_) b
  split
  · exact hf r
  · rfl

theorem lookup_updRecord_same {s : State} {a : Addr} {r : Record} {f : Record → Record}
    (hf : ∀ r, (f r).addr = r.addr) (h : s.lookup a = some r) : (s.updRecord a f).lookup a = some (f r) := by
  simp [lookup_updRecord s hf, h, lookup_addr h]

theorem lookup_updRecord_other (s : State) {a b : Addr} {f : Record → Record} (hf : ∀ r, (f r).addr = r.addr)
    (ne : b ≠ a) : (s.updRecord a f).lookup b = s.lookup b := by
  rw [lookup_updRecord s hf]
  cases h : s.lookup b with
  | none => rfl
  | some r => simp [lookup_addr h, ne]

theorem lookup_updRecord_none {s : State} {a b : Addr} {f : Record → Record} (hf : ∀ r, (f r).addr = r.addr)
    (h : s.lookup b = none) : (s.updRecord a f).lookup b = none := by
  simp [lookup_updRecord s hf, h]

/-- Rewriting the record at an address that has none changes nothing. -/
theorem updRecord_absent {s : State} {a : Addr} (h : s.lookup a = none) (f : Record → Record) :
    s.updRecord a f = s := by
  have same : (s.table.map fun r => if r.addr = a then f r else r) = s.table := by
    conv => rhs; rw [← List.map_id s.table]
    refine List.map_congr_left fun r hr => ?_
    simp [lookup_none_iff.mp h r hr]
  simp [State.updRecord, same]

/-- The table after a rule that may change conditions. -/
theorem changeRecord_table (s : State) (a : Addr) (f : Record → Record) :
    (s.changeRecord a f).table = (s.updRecord a f).table := by
  unfold State.changeRecord
  split
  · next h => rw [updRecord_absent h]
  · dsimp only
    split <;> simp

theorem lookup_changeRecord_same {s : State} {a : Addr} {r : Record} {f : Record → Record}
    (hf : ∀ r, (f r).addr = r.addr) (h : s.lookup a = some r) : (s.changeRecord a f).lookup a = some (f r) :=
  (lookup_congr (changeRecord_table s a f) a).trans (lookup_updRecord_same hf h)

theorem lookup_changeRecord_other (s : State) {a b : Addr} {f : Record → Record} (hf : ∀ r, (f r).addr = r.addr)
    (ne : b ≠ a) : (s.changeRecord a f).lookup b = s.lookup b :=
  (lookup_congr (changeRecord_table s a f) b).trans (lookup_updRecord_other s hf ne)

/-- A rule that moves no condition and no notice group moves no count and no notice. -/
theorem changeRecord_quiet {s : State} {a : Addr} {r : Record} {f : Record → Record} (h : s.lookup a = some r)
    (flags : ∀ k, (f r).flag k = r.flag k) (group : (f r).noticeGroup = r.noticeGroup) :
    s.changeRecord a f = s.updRecord a f := by
  have counts : moveCounts r (f r) s.counts = s.counts := by
    simp [moveCounts, allConds, moveCount, flags, group]
  simp only [State.changeRecord, h, counts]
  rfl

/-! ## Distinct addresses -/

theorem addrs_updRecord (s : State) {a : Addr} {f : Record → Record} (hf : ∀ r, (f r).addr = r.addr) :
    (s.updRecord a f).addrs = s.addrs := by
  simp only [State.addrs, updRecord_table, List.map_map]
  refine List.map_congr_left fun r _ => ?_
  simp only [Function.comp]
  split
  · exact hf r
  · rfl

theorem addrs_changeRecord (s : State) {a : Addr} {f : Record → Record} (hf : ∀ r, (f r).addr = r.addr) :
    (s.changeRecord a f).addrs = s.addrs := by
  rw [← addrs_updRecord s (a := a) hf]
  simp [State.addrs, changeRecord_table]

/-! ## Placing a delivery (R48) -/

/-- An IMMEDIATE, REACHABLE record and room: an own entry. -/
theorem placeDelivery_room {a : Addr} {p : Nat} {o : Origin} {s : State} {r : Record} (h : s.lookup a = some r)
    (cls : r.cls = .immediate) (reach : r.reach = .reachable) (room : s.hasRoom (queueFor p) = true) :
    placeDelivery a p o s
      = ((s.insertEntry (queueFor p) { work := .deliver a, priority := p, origin := o }).updRecord a
          (·.covered .ownEntry), .queued) := by
  simp [placeDelivery, h, cls, reach, room]

/-- An IMMEDIATE, REACHABLE record and no room: QUEUE_FULL and STRANDED rise, and it waits for refresh. -/
theorem placeDelivery_full {a : Addr} {p : Nat} {o : Origin} {s : State} {r : Record} (h : s.lookup a = some r)
    (cls : r.cls = .immediate) (reach : r.reach = .reachable) (room : s.hasRoom (queueFor p) = false) :
    placeDelivery a p o s
      = (((s.updRecord a (·.covered .refresh)).countQueueFull).countStranded, .heldForRefresh) := by
  simp [placeDelivery, h, cls, reach, room]

/-- A record of another class, or LOST, waits for refresh. -/
theorem placeDelivery_held {a : Addr} {p : Nat} {o : Origin} {s : State} {r : Record} (h : s.lookup a = some r)
    (held : r.cls ≠ .immediate ∨ r.reach = .lost) :
    placeDelivery a p o s = (s.updRecord a (·.covered .refresh), .heldForRefresh) := by
  have : ¬(r.cls = .immediate ∧ r.reach = .reachable) := by
    rintro ⟨hc, hr⟩
    rcases held with h' | h'
    · exact h' hc
    · rw [hr] at h'; cases h'
  simp [placeDelivery, h, this]

/-- Whatever the case, the record with the address is given a cover and nothing else of it changes. -/
theorem placeDelivery_lookup {a : Addr} {p : Nat} {o : Origin} {s : State} {r : Record} (h : s.lookup a = some r) :
    ∃ c, (placeDelivery a p o s).1.lookup a = some (r.covered c) := by
  have cover : ∀ (t : State) (c : Cover), t.table = s.table →
      (t.updRecord a (·.covered c)).lookup a = some (r.covered c) := fun t c e =>
    lookup_updRecord_same (fun _ => rfl) ((lookup_congr e a).trans h)
  unfold placeDelivery
  simp only [h]
  split
  · split
    · exact ⟨.ownEntry, cover _ _ (by simp)⟩
    · exact ⟨.refresh, cover s _ rfl⟩
  · exact ⟨.refresh, cover s _ rfl⟩

theorem placeDelivery_other (a : Addr) (p : Nat) (o : Origin) (s : State) {b : Addr} (ne : b ≠ a) :
    (placeDelivery a p o s).1.lookup b = s.lookup b := by
  have cover : ∀ (t : State) (c : Cover), t.table = s.table →
      (t.updRecord a (·.covered c)).lookup b = s.lookup b := fun t c e =>
    (lookup_updRecord_other t (f := (·.covered c)) (fun _ => rfl) ne).trans (lookup_congr e b)
  unfold placeDelivery
  split
  · rfl
  split
  · split
    · exact cover _ _ (by simp)
    · exact cover s _ rfl
  · exact cover s _ rfl

/-! ## Stating a tariff (R50) -/

/-- Every other record stands as it did. -/
theorem coverStatement_other (a : Addr) (p : Nat) (o : Origin) (s : State) {b : Addr} (ne : b ≠ a) :
    (coverStatement a p o s).1.lookup b = s.lookup b := by
  have cover : ∀ (t : State) (c : Cover), t.table = s.table →
      (t.updRecord a (·.covered c)).lookup b = s.lookup b := fun t c e =>
    (lookup_updRecord_other t (f := (·.covered c)) (fun _ => rfl) ne).trans (lookup_congr e b)
  unfold coverStatement
  split
  · rfl
  split
  · exact cover s _ rfl
  split
  · exact cover _ _ (by simp)
  · exact placeDelivery_other a p o s ne

/-- The record is PENDING, with one cover or another, and else as it was. -/
theorem coverStatement_lookup {a : Addr} {p : Nat} {o : Origin} {s : State} {r : Record} (h : s.lookup a = some r) :
    ∃ c, (coverStatement a p o s).1.lookup a = some (r.covered c) := by
  unfold coverStatement
  simp only [h]
  split
  · exact ⟨.inFlight, lookup_updRecord_same (fun _ => rfl) h⟩
  split
  · exact ⟨.ownEntry, lookup_updRecord_same (fun _ => rfl) ((lookup_congr (by simp) a).trans h)⟩
  · exact placeDelivery_lookup h

theorem stateTariff_other (a : Addr) (t : Tariff) (p : Nat) (o : Origin) (s : State) {b : Addr} (ne : b ≠ a) :
    (stateTariff a t p o s).1.lookup b = s.lookup b :=
  (coverStatement_other a p o _ ne).trans (lookup_updRecord_other s (f := (·.stated t)) (fun _ => rfl) ne)

/-- A statement writes the tariff, moves the revision, clears the mark and leaves the record PENDING. -/
theorem stateTariff_lookup {a : Addr} {t : Tariff} {p : Nat} {o : Origin} {s : State} {r : Record}
    (h : s.lookup a = some r) : ∃ c, (stateTariff a t p o s).1.lookup a = some ((r.stated t).covered c) :=
  coverStatement_lookup (lookup_updRecord_same (fun _ => rfl) h)

theorem setOne_other (a : Addr) (t : Tariff) (p : Nat) (o : Origin) (s : State) {b : Addr} (ne : b ≠ a) :
    (setOne a t p o s).1.lookup b = s.lookup b := by
  unfold setOne
  split
  · rfl
  split
  · exact lookup_congr (by unfold setPass; dsimp only; split <;> (try split) <;> (try split) <;> simp) b
  split
  · exact lookup_updRecord_other s (fun _ => rfl) ne
  split
  · rfl
  · exact stateTariff_other a t p o s ne

theorem endOverrideOf_other (a : Addr) (s : State) {b : Addr} (ne : b ≠ a) :
    (endOverrideOf a s).1.lookup b = s.lookup b := by
  unfold endOverrideOf
  split
  · rfl
  split
  · rfl
  dsimp only
  split
  · exact lookup_updRecord_other s (fun _ => rfl) ne
  · exact (stateTariff_other a _ _ _ _ ne).trans (lookup_updRecord_other s (fun _ => rfl) ne)

theorem overrideOne_other (a : Addr) (t : Tariff) (m p : Nat) (o : Origin) (s : State) {b : Addr} (ne : b ≠ a) :
    (overrideOne a t m p o s).state.lookup b = s.lookup b := by
  have written : ∀ (e : Uptime) (d : Tariff), (s.updRecord a (·.overridden e p d)).lookup b = s.lookup b := fun e d =>
    lookup_updRecord_other s (f := (·.overridden e p d)) (fun _ => rfl) ne
  unfold overrideOne
  split
  · rfl
  split <;> first
    | rfl
    | (dsimp only
       split
       · exact written _ _
       · exact (stateTariff_other a t p o _ ne).trans (written _ _))

end Sys2Proof.Machine
end

