-- ==== Sys2Proof/Laws/Counts.lean ====
section
/-! SUPPORT. What one change set does to the 48 source counts (R160). -/

namespace Sys2Proof.Machine

/-- Two endpoint sources have one number only if they are one source. -/
theorem countIndex_inj {k k' : Cond} {n n' : NoticeGroup} (h : countIndex k n = countIndex k' n') : k = k' ∧ n = n' := by
  have v : k.index.val * 8 + n.val = k'.index.val * 8 + n'.val := congrArg Fin.val h
  have hn := n.isLt
  have hn' := n'.isLt
  have kk : k.index.val = k'.index.val := by omega
  refine ⟨?_, Fin.ext (by omega)⟩
  revert kk
  cases k <;> cases k' <;> decide

theorem getElem_set_count (cs : Vector Nat 48) (i j : Fin 48) (v : Nat) :
    (cs.set i v)[j] = if i = j then v else cs[j] := by
  by_cases e : i = j
  · subst e
    simp
  · have ne : (i : Nat) ≠ (j : Nat) := fun x => e (Fin.ext x)
    simp [Vector.getElem_set_ne, ne, e]

/-- A count after a rise. -/
theorem raiseCount_get (cs : Vector Nat 48) (k k' : Cond) (n n' : NoticeGroup) :
    (raiseCount cs k n)[countIndex k' n']
      = cs[countIndex k' n'] + if k = k' ∧ n = n' then 1 else 0 := by
  unfold raiseCount
  rw [getElem_set_count]
  by_cases e : countIndex k n = countIndex k' n'
  · obtain ⟨rfl, rfl⟩ := countIndex_inj e
    simp
  · have : ¬(k = k' ∧ n = n') := fun ⟨a, b⟩ => e (by rw [a, b])
    simp [e, this]

/-- A count after a fall. -/
theorem lowerCount_get (cs : Vector Nat 48) (k k' : Cond) (n n' : NoticeGroup) :
    (lowerCount cs k n)[countIndex k' n']
      = cs[countIndex k' n'] - if k = k' ∧ n = n' then 1 else 0 := by
  unfold lowerCount
  rw [getElem_set_count]
  by_cases e : countIndex k n = countIndex k' n'
  · obtain ⟨rfl, rfl⟩ := countIndex_inj e
    simp
  · have : ¬(k = k' ∧ n = n') := fun ⟨a, b⟩ => e (by rw [a, b])
    simp [e, this]

/-- One kind's part moves no count of another kind. -/
theorem moveCount_other (b a : Record) (cs : Vector Nat 48) {k k' : Cond} (ne : k ≠ k') (n : NoticeGroup) :
    (moveCount b a cs k)[countIndex k' n] = cs[countIndex k' n] := by
  unfold moveCount
  split
  · rfl
  dsimp only
  have out : ∀ m : NoticeGroup, ¬(k = k' ∧ m = n) := fun m h => ne h.1
  split <;> split <;> simp only [raiseCount_get, lowerCount_get, if_neg (out _), Nat.add_zero, Nat.sub_zero]

/-- One kind's part of the change set: the count of the record as it was falls, that of the record as it is rises. -/
theorem moveCount_self (b a : Record) (cs : Vector Nat 48) (k : Cond) (n : NoticeGroup)
    (h : b.flag k = true → 0 < cs[countIndex k b.noticeGroup]) :
    (moveCount b a cs k)[countIndex k n]
      = cs[countIndex k n] - (if b.flag k = true ∧ b.noticeGroup = n then 1 else 0)
        + if a.flag k = true ∧ a.noticeGroup = n then 1 else 0 := by
  unfold moveCount
  split
  · next same =>
    obtain ⟨hf, hg⟩ := same
    have after : (a.flag k = true ∧ a.noticeGroup = n) ↔ (b.flag k = true ∧ b.noticeGroup = n) := by
      rw [hf, hg]
    simp only [after]
    by_cases hk : b.flag k = true ∧ b.noticeGroup = n
    · have pos := h hk.1
      simp only [hk.2] at pos
      rw [if_pos hk]
      omega
    · rw [if_neg hk]
      omega
  · dsimp only
    split <;> split <;> simp_all only [raiseCount_get, lowerCount_get, true_and, reduceIte, Bool.false_eq_true,
      false_and, Nat.sub_zero, Nat.add_zero]

/-- The whole change set. -/
theorem moveCounts_get (b a : Record) (cs : Vector Nat 48) (k : Cond) (n : NoticeGroup)
    (h : b.flag k = true → 0 < cs[countIndex k b.noticeGroup]) :
    (moveCounts b a cs)[countIndex k n]
      = cs[countIndex k n] - (if b.flag k = true ∧ b.noticeGroup = n then 1 else 0)
        + if a.flag k = true ∧ a.noticeGroup = n then 1 else 0 := by
  have keep : ∀ {k' : Cond}, k' ≠ k → ∀ (cs : Vector Nat 48) (n : NoticeGroup),
      (moveCount b a cs k')[countIndex k n] = cs[countIndex k n] := fun ne cs n => moveCount_other b a cs ne n
  unfold moveCounts allConds
  simp only [List.foldl_cons, List.foldl_nil]
  cases k
  all_goals
    repeat rw [keep (by decide)]
    rw [moveCount_self _ _ _ _ _ (by
      intro hb
      have := h hb
      repeat rw [keep (by decide)]
      exact this)]
    repeat rw [keep (by decide)]

end Sys2Proof.Machine
end

