-- ==== Sys2Proof/Laws/Queues.lean ====
section
/-! SUPPORT. The queues: room, what an insertion adds, what a removal leaves, and the first entry for a record. -/

namespace Sys2Proof.Machine

theorem hasRoom_urgent {s : State} : s.hasRoom .urgent = true ↔ s.urgent.length < 32 :=
  decide_eq_true_iff (p := s.urgent.length < 32)

theorem hasRoom_normal {s : State} : s.hasRoom .normal = true ↔ s.normal.length < 128 :=
  decide_eq_true_iff (p := s.normal.length < 128)

/-- Room depends on the queues alone. -/
theorem hasRoom_congr {s t : State} (u : t.urgent = s.urgent) (n : t.normal = s.normal) (q : QueueId) :
    t.hasRoom q = s.hasRoom q := by
  have same : t.queue q = s.queue q := by cases q <;> simp [State.queue, u, n]
  unfold State.hasRoom
  rw [same]

theorem queueFor_urgent {p : Nat} (h : 5 ≤ p) : queueFor p = .urgent := by simp [queueFor, h]

theorem queueFor_normal {p : Nat} (h : p < 5) : queueFor p = .normal := by
  simp [queueFor, Nat.not_le.mpr h]

/-- The own entry depends on the queues alone. -/
theorem ownEntry_congr {s t : State} (u : t.urgent = s.urgent) (n : t.normal = s.normal) (a : Addr) :
    t.ownEntry a = s.ownEntry a := by
  simp [State.ownEntry, State.findEntry, u, n]

theorem groupEntry_congr {s t : State} (u : t.urgent = s.urgent) (n : t.normal = s.normal) (g : Group) :
    t.groupEntry g = s.groupEntry g := by
  simp [State.groupEntry, State.findEntry, u, n]

/-- An entry that a test picks is found exactly when a queue holds one. -/
theorem findEntry_none {s : State} {p : Entry → Bool} :
    s.findEntry p = none ↔ (∀ e ∈ s.urgent, p e = false) ∧ ∀ e ∈ s.normal, p e = false := by
  unfold State.findEntry
  cases h : s.urgent.find? p with
  | some e =>
    have := List.find?_some h
    have mem := List.mem_of_find?_eq_some h
    simp only [reduceCtorEq, false_iff, not_and]
    intro none
    simp [none e mem] at this
  | none => simp_all

/-- After a removal no entry that the test picks is left. -/
theorem findEntry_dropEntries (s : State) (p : Entry → Bool) : (s.dropEntries p).findEntry p = none := by
  rw [findEntry_none]
  simp

theorem ownEntry_dropEntries (s : State) (a : Addr) : (s.dropEntries (Entry.isFor a)).ownEntry a = none :=
  findEntry_dropEntries s _

/-- An insertion puts the entry at the tail of its queue and leaves the other. -/
theorem insertEntry_queue (s : State) (q : QueueId) (e : Entry) :
    (s.insertEntry q e).queue q = s.queue q ++ [e] ∧ ∀ q', q' ≠ q → (s.insertEntry q e).queue q' = s.queue q' := by
  cases q <;> refine ⟨rfl, fun q' h => ?_⟩ <;> cases q' <;> first | rfl | exact absurd rfl h

/-- Every entry after a move is one that stood before, but for its priority and origin. -/
theorem raiseEntry_urgent_mem {s : State} {p : Entry → Bool} {n : Nat} {o : Origin} {e : Entry}
    (h : e ∈ (s.raiseEntry p n o).urgent) : e ∈ s.urgent ∨ (e.priority = n ∧ 5 ≤ n) := by
  unfold State.raiseEntry at h
  split at h
  · exact .inl h
  split at h
  · next cond =>
    rcases List.mem_append.mp h with h' | h'
    · exact .inl h'
    · have : e.priority = n := by rw [List.mem_singleton.mp h']
      exact .inr ⟨this, cond.2.1⟩
  · exact .inl h

theorem raiseEntry_normal_sub {s : State} {p : Entry → Bool} {n : Nat} {o : Origin} {e : Entry}
    (h : e ∈ (s.raiseEntry p n o).normal) : e ∈ s.normal := by
  unfold State.raiseEntry at h
  split at h
  · exact h
  split at h
  · exact (List.mem_filter.mp h).1
  · exact h

/-- A scan takes its candidate and the rest from the queue. -/
theorem scan_mem (s : State) : ∀ (l : List Entry) (e : Entry),
    ((s.scan l).1 = some e → e ∈ l) ∧ (e ∈ (s.scan l).2 → e ∈ l)
  | [], e => by simp [State.scan]
  | x :: xs, e => by
    have ih := scan_mem s xs e
    unfold State.scan
    split
    · simp only [Option.some.injEq]
      exact ⟨fun h => h ▸ List.mem_cons_self, fun h => List.mem_cons_of_mem _ h⟩
    · exact ⟨fun h => List.mem_cons_of_mem _ (ih.1 h), fun h => List.mem_cons_of_mem _ (ih.2 h)⟩
    · dsimp only
      refine ⟨fun h => List.mem_cons_of_mem _ (ih.1 h), fun h => ?_⟩
      rcases List.mem_cons.mp h with rfl | h'
      · exact List.mem_cons_self
      · exact List.mem_cons_of_mem _ (ih.2 h')

theorem scan_length (s : State) : ∀ l : List Entry, (s.scan l).2.length ≤ l.length
  | [] => Nat.le_refl _
  | x :: xs => by
    have ih := scan_length s xs
    unfold State.scan
    split
    · exact Nat.le_succ _
    · exact Nat.le_succ_of_le ih
    · exact Nat.succ_le_succ ih

/-- A scan in which every priority is masked passes every entry over. -/
theorem scan_masked (s : State) : ∀ l : List Entry, (∀ e ∈ l, e.priority ≤ s.arbiter.lineMask) →
    s.scan l = (none, l)
  | [], _ => rfl
  | x :: xs, h => by
    have hx : s.weighEntry x = .passedOver := by
      simp [State.weighEntry, h x List.mem_cons_self]
    simp [State.scan, hx, scan_masked s xs fun e he => h e (List.mem_cons_of_mem _ he)]

end Sys2Proof.Machine
end

