-- ==== Sys2Proof/Laws/Ends.lean ====
section
/-! SUPPORT. What a record is after a flight: the words of the statements (`State.afterFlight`, `State.afterAck`,
`State.afterFailure`) beside the operations that the ends of transactions apply; and what placing a delivery and
covering a statement do, in the words `Delivered` and `CoveredAnew`. -/

namespace Sys2Proof.Machine

@[simp] theorem afterFlight_addr (s : State) (r : Record) : (s.afterFlight r).addr = r.addr := rfl
@[simp] theorem afterFlight_slot (s : State) (r : Record) : (s.afterFlight r).slot = r.slot := rfl
@[simp] theorem afterFlight_cls (s : State) (r : Record) : (s.afterFlight r).cls = r.cls := rfl
@[simp] theorem afterFlight_reach (s : State) (r : Record) : (s.afterFlight r).reach = r.reach := rfl
@[simp] theorem afterFlight_image (s : State) (r : Record) : (s.afterFlight r).image = r.image := rfl
@[simp] theorem afterFlight_desired (s : State) (r : Record) : (s.afterFlight r).desired = r.desired := rfl
@[simp] theorem afterFlight_revision (s : State) (r : Record) : (s.afterFlight r).revision = r.revision := rfl
@[simp] theorem afterFlight_inFlight (s : State) (r : Record) : (s.afterFlight r).inFlight = false := rfl
@[simp] theorem afterFlight_redecodeDue (s : State) (r : Record) : (s.afterFlight r).redecodeDue = false := rfl

/-- A flight is over: the in-flight flag falls, and then the re-decode that fell due is made (R41, R54). -/
theorem afterFlight_eq (s : State) (r : Record) :
    s.afterFlight r
      = (if r.redecodeDue then ({ r with inFlight := false } : Record).redecoded (s.decodeCoupler r.addr)
         else { r with inFlight := false }) := by
  cases h : r.redecodeDue <;> simp [State.afterFlight, Record.redecoded, h]

/-- What R55 records and R42 learns, with the flight over. -/
theorem afterAck_eq (s : State) (r : Record) (f : AckFrame) (heard : Phase) (q : Quality) (sent : Option (List Group)) :
    s.afterAck r f heard q (sent <|> r.confirmed) = s.afterFlight (r.acked f heard q sent) := by
  unfold State.afterAck Record.acked Record.learned
  congr 1
  cases sent <;> by_cases h : r.source = .fixed <;> by_cases k : r.coupler = .single heard <;> simp [h, k]

/-- What R115 counts and R118 makes LOST, with the flight over. -/
theorem afterFailure_eq (s : State) (r : Record) : s.afterFailure r = s.afterFlight (r.failed s.attempts) := by
  unfold State.afterFailure Record.failed
  simp only [Record.lossLimit, bumpFailures, Record.becomesLost, State.afterFlight]
  by_cases h : r.reach = .reachable ∧ (if r.alternate.isSome then 2 * s.attempts else s.attempts) ≤ min (r.failures + 1) 15
  · simp only [h, and_self, if_true]
  · simp only [h, if_false]

/-- The units of a range in the words of the statements. -/
theorem unitsOf_eq (g : Segment) (start : Byte) (count : Nat) : unitsOf g start count = rangeAddrs g start count := rfl

/-- A unit is passed over exactly where the walk skips it (R43). -/
theorem passesOver_iff (s : State) (a : Addr) : s.passesOver a ↔ s.skipsUnit a = true := by
  unfold State.passesOver State.skipsUnit
  cases s.lookup a with
  | none => simp
  | some r => simp

/-- The route a RETRY entry takes, in the words of the statements (R114, R116). -/
theorem routeFor_eq (attempts : Nat) (r : Record) :
    r.routeFor attempts
      = (if r.reach = .reachable ∧ attempts ≤ r.failures then r.alternate.getD r.primary else r.primary) := by
  unfold Record.routeFor
  cases r.reach <;> cases r.alternate <;> simp

/-! ## Deliveries and statements (R48, R50) -/

/-- Placing a delivery does what R48 says. -/
theorem placeDelivery_delivered {a : Addr} {p : Nat} {o : Origin} {s : State} {r : Record} (h : s.lookup a = some r) :
    Delivered a p o r s (placeDelivery a p o s).1 := by
  refine ⟨fun cls reach room => ?_, fun cls reach room => ?_, fun held => ?_⟩
  · rw [placeDelivery_room h cls reach room]
    refine ⟨lookup_updRecord_same (fun _ => rfl) ((lookup_congr (by simp) a).trans h), ?_, by simp, by simp⟩
    have q := insertEntry_queue s (queueFor p) { work := .deliver a, priority := p, origin := o }
    exact ⟨(by cases queueFor p <;> rfl : _ = _).trans q.1,
      fun k ne => (by cases k <;> rfl : _ = _).trans (q.2 k ne)⟩
  · rw [placeDelivery_full h cls reach room]
    exact ⟨(lookup_congr (by simp) a).trans (lookup_updRecord_same (f := (·.covered .refresh)) (fun _ => rfl) h),
      by simp, by simp, by rfl, by rfl⟩
  · rw [placeDelivery_held h held]
    exact ⟨lookup_updRecord_same (fun _ => rfl) h, rfl, rfl, rfl, rfl⟩

/-- Covering a statement does what the table of R50 says. -/
theorem coverStatement_covered {a : Addr} {p : Nat} {o : Origin} {s : State} {r : Record} (h : s.lookup a = some r) :
    CoveredAnew a p o r s (coverStatement a p o s).1 := by
  refine ⟨fun flight => ?_, fun flight none => ?_, fun flight k e own up => ?_⟩
  · have e : coverStatement a p o s = (s.updRecord a (·.covered .inFlight), .queuedAfterFlight) := by
      simp [coverStatement, h, flight]
    rw [e]
    exact ⟨lookup_updRecord_same (f := (·.covered .inFlight)) (fun _ => rfl) h, rfl, rfl, rfl, rfl⟩
  · have e : coverStatement a p o s = placeDelivery a p o s := by simp [coverStatement, h, flight, none]
    rw [e]
    exact placeDelivery_delivered h
  · have eq : coverStatement a p o s
        = ((s.raiseEntry (Entry.isFor a) p o).updRecord a (·.covered .ownEntry), .queued) := by
      simp [coverStatement, h, flight, own]
    rw [eq]
    have found : s.normal.find? (Entry.isFor a) = if k = .normal then some e else none := by
      unfold State.ownEntry State.findEntry at own
      split at own
      · cases own
        exact List.find?_eq_none.mpr fun x m => by simp [up rfl x m]
      · cases f : s.normal.find? (Entry.isFor a) <;> rw [f] at own <;> cases own
        rfl
    refine ⟨lookup_updRecord_same (s := s.raiseEntry (Entry.isFor a) p o) (f := (·.covered .ownEntry)) (fun _ => rfl)
      ((lookup_congr (by simp) a).trans h), by simp, by simp, fun moves => ?_, fun stays => ?_⟩
    · obtain ⟨rfl, above, urgent, room⟩ := moves
      simp [State.raiseEntry, found, above, urgent, hasRoom_urgent.mpr room, State.updRecord]
    · cases k with
      | urgent => simp [State.raiseEntry, found, State.updRecord]
      | normal =>
        have : ¬(e.priority < p ∧ 5 ≤ p ∧ s.hasRoom .urgent = true) := fun c =>
          stays ⟨rfl, c.1, c.2.1, hasRoom_urgent.mp c.2.2⟩
        simp [State.raiseEntry, found, this, State.updRecord]

/-! ## END_OVERRIDE of an endpoint (R156) -/

/-- An address in full form reads back, whatever the default segment (R24, R183). -/
theorem addrOf_full (dflt : Segment) (a : Addr) : addrOf dflt (0x8000 ||| a.setWidth 16) = some a := by
  have full : (0x8000 ||| a.setWidth 16 : Half).toNat / 2048 = 16 := by
    have small : a.toNat < 2 ^ 15 := by omega
    have sum := Nat.two_pow_add_eq_or_of_lt small 1
    have low : a.toNat % 65536 = a.toNat := by omega
    rw [BitVec.toNat_or, BitVec.toNat_setWidth, low]
    show (2 ^ 15 * 1 ||| a.toNat) / 2048 = 16
    omega
  have back : (0x8000 ||| a.setWidth 16 : Half).setWidth 11 = a := by
    ext i h
    simp
  rw [addrOf, if_pos full, back]

/-- What END_OVERRIDE of the endpoint leaves is the override's end. -/
theorem afterEndOverride_eq (s : State) (a : Addr) : s.afterEndOverride a = (endOverrideOf a s).1 := by
  have frame := (endOverrideOf_frame a s).link
  unfold State.afterEndOverride exec execEndOverride endOverrideRequest
  simp only [addrOf_full]
  cases h : s.lookup a with
  | none => simp [endOverrideOf, h, refuse, Answer.reply]
  | some r =>
    show { (endOverrideOf a s).1 with link := s.link } = _
    rw [← frame]

end Sys2Proof.Machine
end

