-- ==== Sys2Proof/Laws/Notices.lean ====
section
/-! SUPPORT. Levels, the tests that queue notices, and what a change of levels does to the notice lines. -/

namespace Sys2Proof.Machine

/-! ## Levels -/

/-- A level is read from the counts, the return flag, the backlog level and the map alone. -/
theorem sourceLevel_congr {s t : State} (c : t.counts = s.counts) (m : t.mains.returnFlag = s.mains.returnFlag)
    (b : t.refresh.backlogLevel = s.refresh.backlogLevel) (i : SourceId) : t.sourceLevel i = s.sourceLevel i := by
  simp only [State.sourceLevel, c, m, b]

theorem lineLevel_congr {s t : State} (c : t.counts = s.counts) (m : t.mains.returnFlag = s.mains.returnFlag)
    (b : t.refresh.backlogLevel = s.refresh.backlogLevel) (x : t.sourceMap = s.sourceMap) (l : Line) :
    t.lineLevel l = s.lineLevel l := by
  simp only [State.lineLevel, x]
  congr 1
  funext i
  rw [sourceLevel_congr c m b]

theorem lineLevel_riseLine (s : State) (l k : Line) : (s.riseLine l).lineLevel k = s.lineLevel k :=
  lineLevel_congr (by simp) (by simp) (by simp) (by simp) k

theorem lineLevel_testLine (s : State) (l k : Line) : (s.testLine l).lineLevel k = s.lineLevel k :=
  lineLevel_congr (by simp) (by simp) (by simp) (by simp) k

theorem lineLevel_noticeChange (b s : State) (k : Line) : (noticeChange b s).lineLevel k = s.lineLevel k :=
  lineLevel_congr (by simp) (by simp) (by simp) (by simp) k

/-! ## One test -/

/-- A test writes no line but its own, and of its own only the awaiting flag. -/
theorem testLine_line (s : State) (l k : Line) :
    (s.testLine l).lines[k] = s.lines[k]
      ∨ k = l ∧ s.lines[l].masked = false ∧ s.lineLevel l = true
        ∧ (s.testLine l).lines[k] = { s.lines[l] with awaiting := true } := by
  by_cases h : s.lines[l].masked = true ∨ s.lineLevel l = false ∨ s.lines[l].awaiting = true
  · simp only [State.testLine, if_pos h]
    exact .inl trivial
  · have lines : (s.testLine l).lines = s.lines.set l { s.lines[l] with awaiting := true } := by
      simp only [State.testLine, if_neg h]
      split <;> rfl
    simp only [not_or, Bool.not_eq_true, Bool.not_eq_false] at h
    rw [lines]
    by_cases e : k = l
    · subst e
      exact .inr ⟨rfl, h.1, h.2.1, by simp⟩
    · refine .inl ?_
      have : (l : Nat) ≠ (k : Nat) := fun x => e (Fin.ext x.symm)
      simp [Vector.getElem_set_ne, this]

/-- After its test an unmasked line whose level is true is awaiting. -/
theorem testLine_awaits (s : State) (l : Line) (m : s.lines[l].masked = false) (v : s.lineLevel l = true) :
    (s.testLine l).lines[l].awaiting = true := by
  by_cases h : s.lines[l].awaiting = true
  · have stays : s.testLine l = s := if_pos (.inr (.inr h))
    rw [stays, h]
  · have run : ¬(s.lines[l].masked = true ∨ s.lineLevel l = false ∨ s.lines[l].awaiting = true) := by
      rintro (x | x | x)
      · rw [m] at x; cases x
      · rw [v] at x; cases x
      · exact h x
    have lines : (s.testLine l).lines = s.lines.set l { s.lines[l] with awaiting := true } := by
      simp only [State.testLine, if_neg run]
      split <;> rfl
    exact (congrArg (fun v : Vector NoticeLine 20 => v[l].awaiting) lines).trans (by simp)

/-- A rise writes no line but its own, and of its own only the awaiting flag, in LEVEL mode. -/
theorem riseLine_line (s : State) (l k : Line) :
    (s.riseLine l).lines[k] = s.lines[k]
      ∨ k = l ∧ s.lines[l].masked = false ∧ s.lines[l].edge = false ∧ s.lineLevel l = true
        ∧ (s.riseLine l).lines[k] = { s.lines[l] with awaiting := true } := by
  unfold State.riseLine
  split
  · exact .inl (congrArg (fun v : Vector NoticeLine 20 => v[k]) (riseEdge_lines s l))
  · next edge =>
    rcases testLine_line s l k with h | ⟨e, m, v, w⟩
    · exact .inl h
    · exact .inr ⟨e, m, by simpa using edge, v, w⟩

/-! ## A change of levels -/

/-- One line's part of a change. -/
theorem riseIf_line (b a s : State) (l k : Line) :
    let t := if b.lineLevel l = false ∧ a.lineLevel l = true then s.riseLine l else s
    t.lines[k].masked = s.lines[k].masked ∧ t.lines[k].edge = s.lines[k].edge ∧ t.lines[k].tag = s.lines[k].tag
      ∧ (s.lines[k].awaiting = true → t.lines[k].awaiting = true) := by
  dsimp only
  split
  · rcases riseLine_line s l k with h | ⟨rfl, _, _, _, h⟩
    · simp [h]
    · simp [h]
  · simp

/-- A walk of such parts keeps the settings of every line and every awaiting flag that is set. -/
theorem noticeChange_line (b s : State) (k : Line) :
    (noticeChange b s).lines[k].masked = s.lines[k].masked ∧ (noticeChange b s).lines[k].edge = s.lines[k].edge
      ∧ (noticeChange b s).lines[k].tag = s.lines[k].tag
      ∧ (s.lines[k].awaiting = true → (noticeChange b s).lines[k].awaiting = true) :=
  foldl_relates
    (fun x y : State => y.lines[k].masked = x.lines[k].masked ∧ y.lines[k].edge = x.lines[k].edge
      ∧ y.lines[k].tag = x.lines[k].tag ∧ (x.lines[k].awaiting = true → y.lines[k].awaiting = true))
    (fun _ => ⟨rfl, rfl, rfl, id⟩)
    (fun h g => ⟨g.1.trans h.1, g.2.1.trans h.2.1, g.2.2.1.trans h.2.2.1, fun x => g.2.2.2 (h.2.2.2 x)⟩)
    _ (fun x l => riseIf_line b s x l k) _ s

/-- The line's own part of a change leaves it awaiting where R165 wants it. -/
theorem noticeChange_awaits (b s : State) (k : Line) (m : s.lines[k].masked = false) (e : s.lines[k].edge = false)
    (was : b.lineLevel k = false) (is : s.lineLevel k = true) : (noticeChange b s).lines[k].awaiting = true := by
  have walk : ∀ (l : List Line) (x : State), k ∈ l → x.lines[k].masked = false → x.lines[k].edge = false →
      x.lineLevel k = true →
      (l.foldl (fun t j => if b.lineLevel j = false ∧ s.lineLevel j = true then t.riseLine j else t)
        x).lines[k].awaiting = true := by
    intro l
    induction l with
    | nil => intro x h; cases h
    | cons j js ih =>
      intro x h hm he hv
      rw [List.foldl_cons]
      have step := riseIf_line b s x j k
      dsimp only at step
      by_cases here : j = k
      · subst here
        rw [if_pos ⟨was, is⟩]
        have awaits : (x.riseLine j).lines[j].awaiting = true := by
          have level : ¬x.lines[j].edge = true := by rw [he]; exact Bool.false_ne_true
          rw [show x.riseLine j = x.testLine j from if_neg level]
          exact testLine_awaits x j hm hv
        exact (foldl_relates
          (fun x y : State => x.lines[j].awaiting = true → y.lines[j].awaiting = true)
          (fun _ => id) (fun f g x => g (f x)) _ (fun x l => (riseIf_line b s x l j).2.2.2) js _) awaits
      · have rest : k ∈ js := by
          rcases List.mem_cons.mp h with h' | h'
          · exact absurd h'.symm here
          · exact h'
        refine ih _ rest (step.1.trans hm) (step.2.1.trans he) ?_
        split
        · rw [lineLevel_riseLine]; exact hv
        · exact hv
  exact walk _ s (List.mem_finRange k) m e is

/-- A change of levels from a state in which no cause is missed misses none: what R162 is for. -/
theorem noticeChange_missesNone {b s : State} (same : s.lines = b.lines) (h : b.noCauseMissed) :
    (noticeChange b s).noCauseMissed := by
  intro l m e v
  have line := noticeChange_line b s l
  rw [line.1] at m
  rw [line.2.1] at e
  rw [lineLevel_noticeChange] at v
  cases was : b.lineLevel l with
  | true =>
    refine line.2.2.2 ?_
    rw [same] at m e ⊢
    exact h l m e was
  | false => exact noticeChange_awaits b s l m e was v

/-! ## Walks over lines, in the words of the statements (R165, R167) -/

/-- One line's part of a walk: its rise is taken, or it is tested. -/
def State.takeLine (tested risen : Line → Bool) (s : State) (l : Line) : State :=
  if risen l then s.riseEdge l else if tested l then s.testLine l else s

/-- The test of a line makes it awaiting. -/
def State.caused (tested : Line → Bool) (s : State) (l : Line) : Bool :=
  tested l && !s.lines[l].masked && s.lineLevel l && !s.lines[l].awaiting

/-- The rise of an EDGE line is not lost. -/
def State.edgeTaken (risen : Line → Bool) (s : State) (l : Line) : Bool := risen l && !s.lines[l].masked

/-- The notice that a line's part places, if it places one. -/
def State.placed (tested risen : Line → Bool) (s : State) (l : Line) : List Notice :=
  if (s.caused tested l || s.edgeTaken risen l) && !s.noticeWaiting l then [{ line := l, tag := s.lines[l].tag }]
  else []

/-- A test that finds a cause marks the line and places a notice unless one waits. -/
theorem testLine_eq (s : State) (l : Line) :
    s.testLine l
      = if !s.lines[l].masked && s.lineLevel l && !s.lines[l].awaiting then
          { s with
            lines := s.lines.set l { s.lines[l] with awaiting := true }
            fifo := s.fifo ++ (if s.noticeWaiting l then [] else [{ line := l, tag := s.lines[l].tag }]) }
        else s := by
  unfold State.testLine
  cases m : s.lines[l].masked with
  | true => rw [if_pos (Or.inl rfl), if_neg (by simp)]
  | false =>
    cases v : s.lineLevel l with
    | false => rw [if_pos (Or.inr (Or.inl rfl)), if_neg (by simp)]
    | true =>
      cases w : s.lines[l].awaiting with
      | true => rw [if_pos (Or.inr (Or.inr rfl)), if_neg (by simp)]
      | false =>
        rw [if_neg (by decide : ¬(false = true ∨ true = false ∨ false = true)),
          if_pos (by decide : (!false && true && !false) = true)]
        show (if s.noticeWaiting l then _ else _) = _
        cases s.noticeWaiting l <;> simp [State.queueNotice, State.setLine]

/-- What one part does: to its own line, to the FIFO and to the count of merged rises. -/
theorem takeLine_spec {tested risen : Line → Bool} (apart : ∀ l, risen l = true → tested l = false) (s : State)
    (l : Line) :
    (s.takeLine tested risen l).lines
        = (if s.caused tested l then s.lines.set l { s.lines[l] with awaiting := true } else s.lines)
      ∧ (s.takeLine tested risen l).fifo = s.fifo ++ s.placed tested risen l
      ∧ (s.takeLine tested risen l).counters.merged
        = (if s.edgeTaken risen l && s.noticeWaiting l then min (s.counters.merged + 1) 65535
           else s.counters.merged) := by
  unfold State.takeLine State.placed
  cases r : risen l with
  | true =>
    have noTest : s.caused tested l = false := by simp only [State.caused, apart l r, Bool.false_and]
    rw [noTest, if_pos rfl]
    refine ⟨riseEdge_lines s l, ?_⟩
    rw [State.edgeTaken, r]
    unfold State.riseEdge
    cases s.lines[l].masked <;> cases s.noticeWaiting l <;> simp [State.queueNotice, State.countMerged, bump]
  | false =>
    have noEdge : s.edgeTaken risen l = false := by rw [State.edgeTaken, r, Bool.false_and]
    rw [noEdge, if_neg Bool.false_ne_true]
    cases t : tested l with
    | false =>
      have noTest : s.caused tested l = false := by simp only [State.caused, t, Bool.false_and]
      rw [noTest, if_neg Bool.false_ne_true]
      simp
    | true =>
      rw [if_pos rfl, testLine_eq]
      have eq : s.caused tested l = (!s.lines[l].masked && s.lineLevel l && !s.lines[l].awaiting) := by
        rw [State.caused, t, Bool.true_and]
      rw [← eq]
      cases s.caused tested l <;> cases s.noticeWaiting l <;> simp

/-- One part changes nothing for another line. -/
theorem takeLine_other {tested risen : Line → Bool} (apart : ∀ l, risen l = true → tested l = false) (s : State)
    {l k : Line} (ne : k ≠ l) :
    (s.takeLine tested risen l).lines[k] = s.lines[k]
      ∧ (s.takeLine tested risen l).noticeWaiting k = s.noticeWaiting k := by
  have spec := takeLine_spec apart s l
  have idx : (l : Nat) ≠ (k : Nat) := fun x => ne (Fin.ext x.symm)
  refine ⟨(congrArg (fun v : Vector NoticeLine 20 => v[k]) spec.1).trans ?_, ?_⟩
  · split
    · simp [Vector.getElem_set_ne, idx]
    · rfl
  · have : (l == k) = false := by simpa using fun e => ne e.symm
    rw [State.noticeWaiting, spec.2.1, List.any_append, State.placed]
    split <;> simp [State.noticeWaiting, this]

theorem lineLevel_takeLine (tested risen : Line → Bool) (s : State) (l k : Line) :
    (s.takeLine tested risen l).lineLevel k = s.lineLevel k := by
  unfold State.takeLine
  split
  · exact lineLevel_congr (by simp) (by simp) (by simp) (by simp) k
  split
  · exact lineLevel_testLine s l k
  · rfl

/-- What a walk over distinct lines does. -/
theorem walk_spec {tested risen : Line → Bool} (apart : ∀ l, risen l = true → tested l = false) :
    ∀ (ls : List Line) (s : State), ls.Nodup →
      let t := ls.foldl (State.takeLine tested risen) s
      (∀ k : Line, t.lines[k]
          = { s.lines[k] with awaiting := s.lines[k].awaiting || (ls.contains k && s.caused tested k) })
        ∧ t.fifo = s.fifo ++ ls.flatMap (s.placed tested risen)
        ∧ (s.counters.merged ≤ 65535 → t.counters.merged
            = min (s.counters.merged + ls.countP fun l => s.edgeTaken risen l && s.noticeWaiting l) 65535)
        ∧ ∀ k : Line, t.lineLevel k = s.lineLevel k
  | [], s, _ => by
    refine ⟨fun k => ?_, by simp, fun h => ?_, fun _ => rfl⟩
    · simp
    · simp only [List.foldl_nil, List.countP_nil]
      omega
  | l :: ls, s, nodup => by
    have out : l ∉ ls := (List.nodup_cons.mp nodup).1
    have ne : ∀ k ∈ ls, k ≠ l := fun k hk e => out (e ▸ hk)
    have spec := takeLine_spec apart s l
    have ih := walk_spec apart ls (s.takeLine tested risen l) (List.nodup_cons.mp nodup).2
    have caused : ∀ k ∈ ls, (s.takeLine tested risen l).caused tested k = s.caused tested k := fun k hk => by
      rw [State.caused, (takeLine_other apart s (ne k hk)).1, lineLevel_takeLine, State.caused]
    have edge : ∀ k ∈ ls, (s.takeLine tested risen l).edgeTaken risen k = s.edgeTaken risen k := fun k hk => by
      rw [State.edgeTaken, (takeLine_other apart s (ne k hk)).1, State.edgeTaken]
    have placed : ∀ k ∈ ls,
        (s.takeLine tested risen l).placed tested risen k = s.placed tested risen k := fun k hk => by
      rw [State.placed, caused k hk, edge k hk, (takeLine_other apart s (ne k hk)).2,
        (takeLine_other apart s (ne k hk)).1, State.placed]
    refine ⟨fun k => ?_, ?_, fun h => ?_, fun k => ?_⟩
    · rw [List.foldl_cons, ih.1 k]
      by_cases here : k = l
      · subst here
        have : ls.contains k = false := by simpa using out
        have line : (s.takeLine tested risen k).lines[k]
            = { s.lines[k] with awaiting := s.lines[k].awaiting || s.caused tested k } := by
          refine (congrArg (fun v : Vector NoticeLine 20 => v[k]) spec.1).trans ?_
          cases c : s.caused tested k <;> simp
        rw [this, line]
        simp
      · rw [(takeLine_other apart s here).1]
        have : (l :: ls).contains k = ls.contains k := by simp [here]
        rw [this]
        by_cases mem : k ∈ ls
        · rw [caused k mem]
        · have : ls.contains k = false := by simpa using mem
          rw [this, Bool.false_and, Bool.false_and]
    · rw [List.foldl_cons, ih.2.1, spec.2.1, List.append_assoc, List.flatMap_cons]
      rw [List.flatMap_def, List.flatMap_def, List.map_congr_left placed]
    · have step : (s.takeLine tested risen l).counters.merged ≤ 65535 := by
        rw [spec.2.2]
        split <;> omega
      have count : (ls.countP fun k => (s.takeLine tested risen l).edgeTaken risen k
            && (s.takeLine tested risen l).noticeWaiting k)
          = ls.countP fun k => s.edgeTaken risen k && s.noticeWaiting k :=
        List.countP_congr fun k hk => by rw [edge k hk, (takeLine_other apart s (ne k hk)).2]
      rw [List.foldl_cons, ih.2.2.1 step, count, spec.2.2, List.countP_cons]
      split <;> omega
    · rw [List.foldl_cons, ih.2.2.2 k, lineLevel_takeLine]

/-- A walk over all lines does what R165 and R167 say of each. -/
theorem walk_linesTaken {tested risen : Line → Bool} (apart : ∀ l, risen l = true → tested l = false)
    (s : State) :
    LinesTaken tested risen s ((List.finRange 20).foldl (State.takeLine tested risen) s) := by
  have spec := walk_spec apart (List.finRange 20) s (List.nodup_finRange 20)
  dsimp only at spec
  obtain ⟨lines, fifo, merged, level⟩ := spec
  have all : ∀ k : Line, (List.finRange 20).contains k = true := fun k => by simp
  refine ⟨fun k => ?_, ?_, merged⟩
  · dsimp only
    rw [level k, lines k, all k, Bool.true_and]
    rfl
  · dsimp only
    rw [fifo]
    simp only [level]
    congr 1
    generalize List.finRange 20 = ls
    induction ls with
    | nil => rfl
    | cons l ls ih =>
      rw [List.flatMap_cons, ih, List.filter_cons]
      unfold State.placed State.caused State.edgeTaken
      split <;> rfl

/-- No part touches a line's mode. -/
theorem takeLine_edge {tested risen : Line → Bool} (apart : ∀ l, risen l = true → tested l = false) (s : State)
    (l k : Line) : (s.takeLine tested risen l).lines[k].edge = s.lines[k].edge := by
  by_cases here : k = l
  · subst here
    refine (congrArg (fun v : Vector NoticeLine 20 => v[k].edge) (takeLine_spec apart s k).1).trans ?_
    split
    · simp
    · rfl
  · rw [(takeLine_other apart s here).1]

/-- A walk whose every part reads the line's mode, which no part touches, is a walk of fixed parts. -/
theorem foldl_takeLine {tested risen : Line → Bool} (apart : ∀ l, risen l = true → tested l = false) {s : State}
    {f : State → Line → State}
    (part : ∀ x l, x.lines[l].edge = s.lines[l].edge → f x l = x.takeLine tested risen l) :
    ∀ (ls : List Line) (x : State), (∀ k : Line, x.lines[k].edge = s.lines[k].edge) →
      ls.foldl f x = ls.foldl (State.takeLine tested risen) x
  | [], _, _ => rfl
  | l :: ls, x, same => by
    rw [List.foldl_cons, List.foldl_cons, part x l (same l)]
    exact foldl_takeLine apart part ls _ fun k => (takeLine_edge apart x l k).trans (same k)

/-- A change of levels takes every rise as R165 and R167 say (R162). -/
theorem noticeChange_linesTaken (b s : State) :
    let rises := fun l : Line => !b.lineLevel l && s.lineLevel l
    LinesTaken (fun l => rises l && !s.lines[l].edge) (fun l => rises l && s.lines[l].edge) s (noticeChange b s) := by
  intro rises
  have apart : ∀ l, (rises l && s.lines[l].edge) = true → (rises l && !s.lines[l].edge) = false := fun l h => by
    revert h
    cases rises l <;> cases s.lines[l].edge <;> decide
  rw [noticeChange, foldl_takeLine (s := s) apart (fun x l same => ?_) _ s fun _ => rfl]
  · exact walk_linesTaken apart s
  · unfold State.riseLine State.takeLine
    dsimp only [rises]
    rw [same]
    have pick : ∀ (edge was is : Bool) (p q z : State),
        (if was = false ∧ is = true then if edge = true then p else q else z)
          = if (!was && is && edge) = true then p else if (!was && is && !edge) = true then q else z := by
      intro edge was is _ _ _
      cases edge <;> cases was <;> cases is <;> rfl
    exact pick _ _ _ _ _ _

/-- Where the change itself leaves the lines, the FIFO and the merged count, that is all that becomes of them. -/
theorem noticeChange_changeNoticed {b s : State} (lines : s.lines = b.lines) (fifo : s.fifo = b.fifo)
    (merged : s.counters.merged = b.counters.merged) : ChangeNoticed b (noticeChange b s) := by
  have taken := noticeChange_linesTaken b s
  unfold ChangeNoticed LinesTaken at *
  simp only [lineLevel_noticeChange, State.noticeWaiting] at taken ⊢
  rw [lines, fifo, merged] at taken
  exact taken

end Sys2Proof.Machine
end

