-- ==== Sys2Proof/Laws/Weighing.lean ====
section
/-! SUPPORT. The weighing of a boundary in the words of the statements: `State.lineTakes` beside the coupler test,
`GroupOn` beside the coupler of a group frame, `State.passes` and `State.drops` beside the tests of R96, what a scan
does, and `State.isTarget` beside the search of R128. -/

namespace Sys2Proof.Machine

/-! ## The coupler test (R75, R95, R98) -/

theorem held_iff {s : State} {p : Phase} : s.held p = false ↔ ∀ c ∈ s.contexts, p ∉ c.coupler.phases := by
  simp [State.held]

theorem couplerFree_iff {s : State} {k : Coupler} :
    s.couplerFree k = true
      ↔ ∀ p ∈ k.phases, (∀ c ∈ s.contexts, p ∉ c.coupler.phases) ∧ ∀ b, s.arbiter.freeAt p = some b → b ≤ s.boundary := by
  unfold State.couplerFree State.phaseFree
  rw [List.all_eq_true]
  refine forall_congr' fun p => imp_congr_right fun _ => ?_
  rw [Bool.and_eq_true, Bool.not_eq_true', held_iff]
  cases s.arbiter.freeAt p <;> simp

theorem compatible_iff {s : State} {scrub : Bool} {k : Coupler} :
    s.compatible scrub k = true
      ↔ s.contexts = []
        ∨ ∃ x, s.contexts = [x] ∧ s.arbiter.pipeline.active = true ∧ s.arbiter.slotHc.staged = none
            ∧ s.arbiter.pipeline.staged = none ∧ s.arbiter.guard.staged = none
            ∧ x.job.isScrub = false ∧ x.coupler ≠ .bridged ∧ scrub = false ∧ k ≠ .bridged ∧ k ≠ x.coupler := by
  unfold State.compatible Arbiter.stagedWaits
  rcases s.contexts with _ | ⟨x, _ | ⟨y, l⟩⟩ <;> simp [and_assoc]

/-- The coupler test of a candidate is R95 and R98. -/
theorem admits_iff {s : State} {scrub : Bool} {k : Coupler} : s.admits scrub k = true ↔ s.lineTakes scrub k := by
  rw [State.admits, Bool.and_eq_true, couplerFree_iff, compatible_iff]
  rfl

/-- The phases that the couplers of members need are one phase exactly where every member has that coupler. -/
theorem phasesOf_single {m : List Record} (nonempty : m ≠ []) (p : Phase) :
    (allPhases.filter fun q => m.any fun r => r.coupler.phases.contains q) = [p] ↔ ∀ r ∈ m, r.coupler = .single p := by
  have mem : ∀ q, q ∈ (allPhases.filter fun q => m.any fun r => r.coupler.phases.contains q)
      ↔ ∃ r ∈ m, q ∈ r.coupler.phases := fun q => by cases q <;> simp [allPhases]
  constructor
  · intro one r hr
    rw [one] at mem
    have only : ∀ q ∈ r.coupler.phases, q = p := fun q hq => List.mem_singleton.mp ((mem q).mpr ⟨r, hr, hq⟩)
    cases h : r.coupler with
    | single q => rw [only q (by simp [h, Coupler.phases])]
    | bridged =>
      have a := only .a (by simp [h, Coupler.phases, allPhases])
      have b := only .b (by simp [h, Coupler.phases, allPhases])
      exact absurd (a.trans b.symm) (by decide)
  · intro same
    have eq : ∀ q, (m.any fun r => r.coupler.phases.contains q) = decide (q = p) := fun q => by
      obtain ⟨x, xs, rfl⟩ := List.exists_cons_of_ne_nil nonempty
      rw [Bool.eq_iff_iff, List.any_eq_true, decide_eq_true_iff]
      constructor
      · rintro ⟨r, hr, hq⟩
        simpa [same r hr, Coupler.phases] using hq
      · intro hq
        exact ⟨x, List.mem_cons_self, by simp [same x List.mem_cons_self, Coupler.phases, hq]⟩
    rw [List.filter_congr fun q _ => eq q]
    cases p <;> decide

/-- The coupler of a group frame is that of R75. -/
theorem groupOn_iff {m : List Record} {k : Coupler} (nonempty : m ≠ []) : GroupOn m k ↔ groupCoupler m = k := by
  unfold GroupOn groupCoupler
  simp only [← phasesOf_single nonempty]
  have notAll : ∀ p : Phase, (∃ r ∈ m, r.coupler ≠ .single p)
      ↔ (allPhases.filter fun q => m.any fun r => r.coupler.phases.contains q) ≠ [p] := fun p => by
    rw [ne_eq, phasesOf_single nonempty]
    simp
  simp only [notAll]
  generalize (allPhases.filter fun q => m.any fun r => r.coupler.phases.contains q) = l
  rcases l with _ | ⟨p, _ | ⟨q, l⟩⟩ <;> cases k <;> simp

/-! ## The tests of R96 -/

theorem frameOf_none {s : State} {g : Group} : s.frameOf g = none ↔ ∀ c ∈ s.contexts, c.job.group? ≠ some g := by
  simp [State.frameOf]

/-- A candidate is an entry that passes. -/
theorem weighEntry_candidate {s : State} {e : Entry} : s.weighEntry e = .candidate ↔ s.passes e := by
  unfold State.weighEntry State.passes
  by_cases mask : e.priority ≤ s.arbiter.lineMask
  · simp [mask, Nat.not_lt.mpr mask]
  simp only [mask, if_false, Nat.not_le.mp mask, true_and]
  have record : ∀ a, (match s.lookup a with
      | none => Verdict.passedOver
      | some r => if s.admits false r.coupler then .candidate else .passedOver) = .candidate
        ↔ ∃ r, s.lookup a = some r ∧ s.lineTakes false r.coupler := fun a => by
    cases h : s.lookup a <;> simp [← admits_iff]
  cases e.work with
  | deliver a => exact record a
  | poll a => exact record a
  | passDeliver a t => exact record a
  | group g =>
    simp only
    rw [← frameOf_none]
    cases f : s.frameOf g with
    | some c => simp
    | none =>
      by_cases m : s.members g = []
      · simp [m]
      · simp [m, ← admits_iff, groupOn_iff m]

/-- An entry is removed exactly where R77 drops it. -/
theorem weighEntry_removed {s : State} {e : Entry} : s.weighEntry e = .removed ↔ s.drops e = true := by
  unfold State.weighEntry State.drops
  have record : ∀ a, (match s.lookup a with
      | none => Verdict.passedOver
      | some r => if s.admits false r.coupler then .candidate else .passedOver) = .removed ↔ false = true := fun a => by
    cases s.lookup a <;> simp
    split <;> simp
  by_cases mask : e.priority ≤ s.arbiter.lineMask
  · cases e.work <;> simp [mask, Nat.not_lt.mpr mask]
  simp only [mask, if_false, Nat.not_le.mp mask, decide_true, Bool.true_and]
  cases e.work with
  | deliver a => exact record a
  | poll a => exact record a
  | passDeliver a t => exact record a
  | group g =>
    simp only [Bool.and_eq_true, List.all_eq_true, bne_iff_ne]
    rw [← frameOf_none]
    cases f : s.frameOf g with
    | some c => simp
    | none =>
      by_cases m : s.members g = []
      · simp [m]
      · simp [m]
        split <;> simp

/-! ## Scans (R96) -/

theorem kept_nil (s : State) : s.kept [] = [] := rfl

theorem kept_cons (s : State) (e : Entry) (l : List Entry) :
    s.kept (e :: l) = if s.drops e then s.kept l else e :: s.kept l := by
  unfold State.kept
  cases h : s.drops e <;> simp [h]

/-- A scan goes past an entry that does not pass, and drops it or leaves it in its place. -/
theorem scan_past {s : State} {e : Entry} (l : List Entry) (h : ¬s.passes e) :
    s.scan (e :: l) = ((s.scan l).1, if s.drops e then (s.scan l).2 else e :: (s.scan l).2) := by
  rw [← weighEntry_candidate] at h
  rw [State.scan]
  cases w : s.weighEntry e with
  | candidate => exact absurd w h
  | removed => simp [weighEntry_removed.mp w]
  | passedOver =>
    have : s.drops e = false := by
      rw [← Bool.not_eq_true, ← weighEntry_removed, w]
      decide
    simp [this]

/-- The candidate of a scan is the first entry that passes. -/
theorem scan_first {s : State} {e : Entry} (pre post : List Entry) (before : ∀ x ∈ pre, ¬s.passes x)
    (h : s.passes e) : s.scan (pre ++ e :: post) = (some e, s.kept pre ++ post) := by
  induction pre with
  | nil => simp [State.scan, weighEntry_candidate.mpr h, kept_nil]
  | cons x xs ih =>
    rw [List.cons_append, scan_past _ (before x List.mem_cons_self), ih fun y hy => before y (List.mem_cons_of_mem _ hy),
      kept_cons]
    split <;> rfl

/-- A scan in which no entry passes has no candidate. -/
theorem scan_none {s : State} {l : List Entry} (h : ∀ x ∈ l, ¬s.passes x) : s.scan l = (none, s.kept l) := by
  induction l with
  | nil => rfl
  | cons x xs ih =>
    rw [scan_past _ (h x List.mem_cons_self), ih fun y hy => h y (List.mem_cons_of_mem _ hy), kept_cons]

/-! ## The refresh target (R128) -/

theorem refreshable_iff {r : Record} : r.refreshable = true ↔ r.cls ≠ .pass ∧ r.inFlight = false := by
  simp [Record.refreshable]

theorem offersRefresh_iff {s : State} : s.offersRefresh = true ↔ s.offers := by
  simp [State.offersRefresh, State.offers, and_assoc]

/-- In a table in slot order the first record that a test picks is the one of the lowest slot. -/
theorem find?_lowest {l : List Record} {p : Record → Bool} {r : Record} (sorted : (l.map (·.slot)).Pairwise (· < ·))
    (mem : r ∈ l) (picked : p r = true) (lowest : ∀ x ∈ l, p x = true → r.slot ≤ x.slot) : l.find? p = some r := by
  induction l with
  | nil => exact absurd mem List.not_mem_nil
  | cons x xs ih =>
    rw [List.map_cons, List.pairwise_cons] at sorted
    rcases List.mem_cons.mp mem with rfl | tail
    · simp [picked]
    · have below := sorted.1 r.slot (List.mem_map_of_mem tail)
      have : p x = false := by
        rw [← Bool.not_eq_true]
        intro h
        exact absurd (lowest x List.mem_cons_self h) (Nat.not_le.mpr below)
      rw [List.find?_cons, this]
      exact ih sorted.2 tail fun y hy => lowest y (List.mem_cons_of_mem _ hy)

/-- The search finds the target. -/
theorem refreshTarget_of_isTarget {s : State} {r : Record} (wf : s.tableWf) (h : s.isTarget r) :
    s.refreshTarget = some r := by
  obtain ⟨mem, cls, free, first⟩ := h
  have ok : r.refreshable = true := refreshable_iff.mpr ⟨cls, free⟩
  unfold State.refreshTarget
  by_cases above : s.refresh.pointer ≤ r.slot
  · rw [find?_lowest wf.1 mem (by simp [ok, above]) fun x hx hp => ?_]
    rw [Bool.and_eq_true, decide_eq_true_iff, refreshable_iff] at hp
    simpa [above, hp.2] using first x hx hp.1.1 hp.1.2
  · have none : (s.table.find? fun x => x.refreshable && decide (s.refresh.pointer ≤ x.slot)) = none := by
      rw [List.find?_eq_none]
      intro x hx hp
      rw [Bool.and_eq_true, decide_eq_true_iff, refreshable_iff] at hp
      have := first x hx hp.1.1 hp.1.2
      rw [if_neg above] at this
      exact absurd hp.2 (Nat.not_le.mpr this.1)
    rw [none]
    refine find?_lowest wf.1 mem ok fun x hx hp => ?_
    rw [refreshable_iff] at hp
    have := first x hx hp.1 hp.2
    rw [if_neg above] at this
    exact this.2

/-- The search finds nothing exactly where no record may be a target (R129). -/
theorem refreshTarget_none {s : State} : s.refreshTarget = none ↔ ∀ r ∈ s.table, r.cls = .pass ∨ r.inFlight = true := by
  have free : (∀ r ∈ s.table, r.cls = .pass ∨ r.inFlight = true) ↔ ∀ r ∈ s.table, ¬r.refreshable = true :=
    forall_congr' fun r => imp_congr_right fun _ => by
      rw [refreshable_iff]
      cases r.inFlight <;> simp
  rw [free]
  unfold State.refreshTarget
  constructor
  · intro h
    split at h
    · exact absurd h (by simp)
    · exact List.find?_eq_none.mp h
  · intro h
    have none : (s.table.find? fun x => x.refreshable && decide (s.refresh.pointer ≤ x.slot)) = none :=
      List.find?_eq_none.mpr fun x hx hp => h x hx (Bool.and_eq_true _ _ ▸ hp).1
    rw [none]
    exact List.find?_eq_none.mpr h

/-! ## The slot that begins (R93, R103) -/

/-- What a context keeps as it passes into its next slot. -/
theorem moved_keeps (s : State) (c : Context) :
    (if s.extensionDue c then c else c.advanced).coupler = c.coupler
      ∧ (if s.extensionDue c then c else c.advanced).job = c.job := by
  split <;> exact ⟨rfl, rfl⟩

theorem beginSlot_boundary (s : State) : s.beginSlot.boundary = s.boundary := by
  unfold State.boundary State.beginSlot
  cases s.mains.grid <;> simp

theorem beginSlot_frameFree (s : State) (g : Group) :
    (∀ c ∈ s.beginSlot.contexts, c.job.group? ≠ some g) ↔ ∀ c ∈ s.contexts, c.job.group? ≠ some g := by
  simp [State.beginSlot, moved_keeps]

/-- The new slot changes nothing for a candidate. -/
theorem lineTakes_beginSlot {s : State} {scrub : Bool} {k : Coupler} :
    s.beginSlot.lineTakes scrub k ↔ s.lineTakes scrub k := by
  unfold State.lineTakes
  rw [beginSlot_boundary]
  refine and_congr (by simp [State.beginSlot, moved_keeps, Arbiter.freeAt]) ?_
  rcases h : s.contexts with _ | ⟨x, _ | ⟨y, l⟩⟩ <;> simp [State.beginSlot, moved_keeps, h]

/-- Staged values change nothing for a candidate, since they apply where nothing is in flight. -/
theorem lineTakes_applyStaged {s : State} {scrub : Bool} {k : Coupler} :
    s.applyStagedIfQuiet.lineTakes scrub k ↔ s.lineTakes scrub k := by
  unfold State.applyStagedIfQuiet
  rcases h : s.contexts with _ | ⟨x, l⟩
  · simp only [List.isEmpty_nil, if_true, State.lineTakes, h, true_or, and_true]
    refine forall_congr' fun p => imp_congr_right fun _ => ?_
    cases p <;> simp [Arbiter.freeAt, Arbiter.applyStaged, State.boundary]
  · simp

/-- The state in which a boundary without ends is weighed: staged values applied where nothing is in flight, the new
slot begun. -/
def State.atWeighing (s : State) : State := s.applyStagedIfQuiet.beginSlot

theorem lineTakes_atWeighing {s : State} {scrub : Bool} {k : Coupler} :
    s.atWeighing.lineTakes scrub k ↔ s.lineTakes scrub k := lineTakes_beginSlot.trans lineTakes_applyStaged

@[simp] theorem atWeighing_table (s : State) : s.atWeighing.table = s.table := by
  simp only [State.atWeighing, State.beginSlot, State.applyStagedIfQuiet]; split <;> rfl
@[simp] theorem atWeighing_urgent (s : State) : s.atWeighing.urgent = s.urgent := by
  simp only [State.atWeighing, State.beginSlot, State.applyStagedIfQuiet]; split <;> rfl
@[simp] theorem atWeighing_normal (s : State) : s.atWeighing.normal = s.normal := by
  simp only [State.atWeighing, State.beginSlot, State.applyStagedIfQuiet]; split <;> rfl
@[simp] theorem atWeighing_refresh (s : State) : s.atWeighing.refresh = s.refresh := by
  simp only [State.atWeighing, State.beginSlot, State.applyStagedIfQuiet]; split <;> rfl
@[simp] theorem atWeighing_groups (s : State) : s.atWeighing.groups = s.groups := by
  simp only [State.atWeighing, State.beginSlot, State.applyStagedIfQuiet]; split <;> rfl
@[simp] theorem atWeighing_lineSeq (s : State) : s.atWeighing.lineSeq = s.lineSeq := by
  simp only [State.atWeighing, State.beginSlot, State.applyStagedIfQuiet]; split <;> rfl
@[simp] theorem atWeighing_attempts (s : State) : s.atWeighing.attempts = s.attempts := by
  simp only [State.atWeighing, State.beginSlot, State.applyStagedIfQuiet]; split <;> rfl
@[simp] theorem atWeighing_lineMask (s : State) : s.atWeighing.arbiter.lineMask = s.arbiter.lineMask := by
  simp only [State.atWeighing, State.beginSlot, State.applyStagedIfQuiet]; split <;> rfl
@[simp] theorem atWeighing_reservation (s : State) : s.atWeighing.arbiter.reservation = s.arbiter.reservation := by
  simp only [State.atWeighing, State.beginSlot, State.applyStagedIfQuiet]; split <;> rfl

theorem atWeighing_frameFree (s : State) (g : Group) :
    (∀ c ∈ s.atWeighing.contexts, c.job.group? ≠ some g) ↔ ∀ c ∈ s.contexts, c.job.group? ≠ some g := by
  rw [State.atWeighing, beginSlot_frameFree]
  unfold State.applyStagedIfQuiet
  split <;> rfl

/-- An entry passes at the weighing where it passes at the boundary. -/
theorem passes_atWeighing {s : State} {e : Entry} : s.atWeighing.passes e ↔ s.passes e := by
  unfold State.passes
  simp only [atWeighing_lineMask, State.members, atWeighing_table, atWeighing_frameFree, lineTakes_atWeighing,
    State.lookup]

theorem drops_atWeighing {s : State} {e : Entry} : s.atWeighing.drops e = s.drops e := by
  unfold State.drops
  cases e.work with
  | deliver a => rfl
  | poll a => rfl
  | passDeliver a t => rfl
  | group g =>
    simp only [atWeighing_lineMask, State.members, atWeighing_table]
    congr 2
    rw [Bool.eq_iff_iff, List.all_eq_true, List.all_eq_true]
    simpa using atWeighing_frameFree s g

theorem kept_atWeighing {s : State} {l : List Entry} : s.atWeighing.kept l = s.kept l := by
  simp only [State.kept, drops_atWeighing]

/-- With no context in its last slot nothing ends. -/
theorem takeEnds_none {s : State} (h : ∀ c ∈ s.contexts, c.remaining ≠ 1) : ∀ n, takeEnds n s = s
  | 0 => rfl
  | n + 1 => by
    have next : s.nextEnd = none := by
      unfold State.nextEnd
      split
      · exact List.find?_eq_none.mpr fun c hc => by simpa using h c hc
      · rfl
    have : takeNextEnd s = s := by simp [takeNextEnd, next]
    rw [takeEnds, this]
    exact takeEnds_none h n

/-- A boundary that is weighed from order 2 is weighed with the new slot begun (R93, R94). -/
theorem takeBoundary_weighs {s : State} (h : s.weighs) : takeBoundary s = weighFree s.atWeighing := by
  have same : s.applyStagedIfQuiet.contexts = s.contexts := by
    unfold State.applyStagedIfQuiet
    split <;> rfl
  have member : ∀ c ∈ s.atWeighing.contexts, ∃ x ∈ s.contexts, c.job = x.job ∧ c.seq = x.seq := by
    intro c hc
    simp only [State.atWeighing, State.beginSlot, same, List.mem_map] at hc
    obtain ⟨x, hx, rfl⟩ := hc
    refine ⟨x, hx, (moved_keeps _ x).2, ?_⟩
    split <;> rfl
  have boundary : s.atWeighing.boundary = s.boundary := by
    rw [State.atWeighing, beginSlot_boundary]
    unfold State.applyStagedIfQuiet
    split <;> rfl
  have extension : s.atWeighing.contexts.find? s.atWeighing.extensionDue = none := by
    rw [List.find?_eq_none]
    intro c hc due
    obtain ⟨x, hx, job, seq⟩ := member c hc
    unfold State.extensionDue at due
    rw [boundary, atWeighing_reservation, job, seq] at due
    have := (h.2 x hx).2.2
    cases j : x.job with
    | scrub a n y =>
      cases y with
      | none => simp [j, Job.isScrub, Job.inPollPart] at due
      | some y => exact this a n y j (by simpa [j, Job.isScrub, Job.inPollPart] using due)
    | _ => simp [j, Job.isScrub] at due
  have free : s.atWeighing.transmitterBusy = false := by
    unfold State.transmitterBusy
    rw [List.any_eq_false]
    intro c hc
    obtain ⟨x, hx, job, -⟩ := member c hc
    simp [job, (h.2 x hx).2.1]
  unfold takeBoundary
  rw [if_pos h.1, takeEnds_none fun c hc => (h.2 c hc).1]
  show weigh s.atWeighing = _
  unfold weigh
  simp only [extension, free, Bool.false_eq_true, if_false]

end Sys2Proof.Machine
end

