-- ==== Sys2Proof/Tests/Slice0.lean ====
section
/-! SUPPORT. The model's own tests: what WellFormed refuses, a few frames written out, and for every statement with
hypotheses one small state and operands that meet them, with what the step leaves there. -/

namespace Sys2Proof.Machine

set_option Elab.async false

/-! ## Helpers -/

/-- The state a command leaves. -/
def after (i : Instr) (s : State) : Option State :=
  match exec i s with
  | .next t => some t
  | .fault _ => none
  | .refused _ => none

/-- The code and content of the one reply, and what a reading of the state left says. -/
def answers (i : Instr) (s : State) (content : List Byte) (p : State → Bool) : Bool :=
  match after i s with
  | none => false
  | some t => t.link.replies.map (·.payload) == [content] && p t

/-- What a reading of the state left says. -/
def leaves (i : Instr) (s : State) (p : State → Bool) : Bool :=
  match after i s with
  | none => false
  | some t => p t

/-- A plain record: IMMEDIATE, REACHABLE, enforced, coupler A, group 3, notice group 2, image UNKNOWN. -/
def plain (a : Addr) : Record :=
  { slot := a.toNat, addr := a, check := 5, cls := .immediate, enforce := true, pinned := false, primary := []
    alternate := none, coupler := .single .a, source := .window, redecodeDue := false, intended := [3]
    confirmed := none, noticeGroup := 2, image := .unknown, desired := none, revision := 7, mark := none
    override := none, held := none, restored := false, relayFault := false, localOverride := false
    holdExpired := false, mismatch := false, reach := .reachable, failures := 0, rxQuality := none
    endpointQuality := none, inFlight := false }

/-- The reset state with records. -/
def withRecords (l : List Record) : State := { State.reset with table := l }

/-- The record left at an address. -/
def recordAt (a : Addr) (p : Record → Bool) (s : State) : Bool :=
  match s.lookup a with
  | none => false
  | some r => p r

/-- A queue entry of a delivery. -/
def delivery (a : Addr) (p : Nat) : Entry := { work := .deliver a, priority := p, origin := .request }

/-- A full normal queue. -/
def fullNormal (s : State) : State := { s with normal := List.replicate 128 (delivery 900 1) }

/-- The line UP at 50 Hz in slot 5, a boundary due or not. -/
def up (due : Bool) (s : State) : State :=
  { s with mains := { s.mains with
      line := .up, freq := some .hz50, boundaryDue := due, refTime := 1000000
      grid := some { boundary := 5, half := if due then 0 else 3, length := 12 } } }

/-- The host address field of segment 0. -/
def unit (u : Nat) : Half := BitVec.ofNat 16 (0x8000 + u)

/-! ## Well-formed commands -/

theorem test_illFormed_empty_frame : (Instr.frameComplete []).wellFormed = false := by decide
theorem test_illFormed_short_frame : (Instr.frameComplete [1, 0x01, 0x00, 0x12]).wellFormed = false := by decide
theorem test_illFormed_long_frame : (Instr.frameComplete [241, 0x01]).wellFormed = false := by decide
theorem test_illFormed_known_kind : (Instr.unknownRequest 0x1D).wellFormed = false := by decide
theorem test_illFormed_no_pairs : (Instr.configure []).wellFormed = false := by decide
theorem test_illFormed_81_pairs : (Instr.configure (List.replicate 81 (1, 8))).wellFormed = false := by decide
theorem test_illFormed_push_all_address : (Instr.push 0xFFFF 3).wellFormed = false := by decide
theorem test_wellFormed_frames :
    (Instr.frameComplete [1, 0x01, 0x00, 0x12, 0x34]).wellFormed = true
      ∧ (Instr.frameComplete [241]).wellFormed = true ∧ (Instr.unknownRequest 0x1E).wellFormed = true := by decide

/-! ## Frames and the table's words -/

/-- The value generally published for a CRC with the generator and the initial value of R172, over nine digits. -/
theorem test_crc_of_digits :
    crc16 [0x31, 0x32, 0x33, 0x34, 0x35, 0x36, 0x37, 0x38, 0x39] = 0x29B1 := by decide +kernel

theorem test_no_row_has_bits : decodeTableWord 8 0x09 = none := rfl

/-- A SET request on the link: 5:200 takes tariff 4 at priority 3. -/
theorem test_readRequest_set :
    readRequest 0x09 [0x85, 0xC8, 0x04, 0x03] = .command (.set 0x85C8 4 3) := by decide

theorem test_addr_forms :
    addrOf 3 0x0029 = some 809 ∧ addrOf 3 0x85C8 = some 1480 ∧ addrOf 3 0x0100 = none ∧ addrOf 3 0x8800 = none := by
  decide

/-! ## Queue, reset -/

theorem test_step_runs_front :
    (match step { State.reset with pending := [.secondEvent, .forgetAll] } with
      | .next t => t.pending == [.forgetAll] && t.timebase.uptime == 1
      | .fault _ => false
      | .refused _ => false) = true := by decide +kernel

theorem test_powerOnReset_straps :
    leaves (.powerOnReset (some true) (some false)) (up true State.reset)
      (fun t => t.link.strap == 2 && t.mains.line == .acquiring && t.link.ready) = true := by decide +kernel

/-! ## Mains (R2 to R7) -/

/-- ACQUIRING with a run of n crossings. -/
def running (n : Nat) : State :=
  { State.reset with mains := { State.reset.mains with good := n, runSum := (n - 1) * 10000, refTime := 100000 } }

theorem test_acquiring_bounds :
    leaves (.zeroCrossing 107499) (running 9) (fun t => t.mains.good == 1) = true
      ∧ leaves (.zeroCrossing 107500) (running 9) (fun t => t.mains.good == 10 && t.mains.runSum == 87500) = true
      ∧ leaves (.zeroCrossing 111000) (running 14) (fun t => t.mains.good == 15) = true
      ∧ leaves (.zeroCrossing 111001) (running 9) (fun t => t.mains.good == 1 && t.mains.runSum == 0) = true
      ∧ leaves (.zeroCrossing 50) (running 0) (fun t => t.mains.good == 1 && t.mains.refTime == 50) = true := by
  decide +kernel

theorem test_lock_first_and_return :
    leaves (.zeroCrossing 110000) (running 15) (fun t => t.mains.line == .up && t.mains.freq == some .hz50
        && t.arbiter.freeA == some 1) = true
      ∧ leaves (.zeroCrossing 107500)
          { running 15 with mains := { (running 15).mains with returnFlag := true, runSum := 14 * 8330 }
                            table := [plain 1, plain 2] }
          (fun t => t.mains.freq == some .hz60 && t.refresh.backlog == 2 && !t.mains.returnFlag) = true := by
  decide +kernel

/-- Fifteen spacings that sum to halfway between the two means give 60 Hz, one microsecond more 50 Hz. -/
theorem test_lock_halfway :
    let at' := fun n => { running 15 with mains := { (running 15).mains with runSum := n } }
    2 * (127475 + 10000) = 15 * 18330
      ∧ leaves (.zeroCrossing 110000) (at' 127475) (fun t => t.mains.freq == some .hz60) = true
      ∧ leaves (.zeroCrossing 110000) (at' 127476) (fun t => t.mains.freq == some .hz50) = true
      ∧ leaves (.zeroCrossing 110000)
          { running 15 with arbiter := { State.reset.arbiter with guard := { active := 1, staged := some 3 } } }
          (fun t => t.arbiter.guard == { active := 3, staged := none }) = true := by decide +kernel

theorem test_crossing_up :
    (up false State.reset).mains.boundaryDue = false
      ∧ leaves (.zeroCrossing 1004999) (up false State.reset) (fun t => t == up false State.reset) = true
      ∧ leaves (.zeroCrossing 1005000) (up false State.reset)
          (fun t => t.mains.grid == some { boundary := 5, half := 4, length := 12 }) = true
      ∧ leaves (.zeroCrossing 1010000)
          { up false State.reset with mains := { (up false State.reset).mains with
              grid := some { boundary := 5, half := 11, length := 12 } } }
          (fun t => t.mains.boundaryDue && t.boundary == 6) = true := by decide +kernel

theorem test_runs_begin_and_end :
    leaves (.zeroCrossing 9) { State.reset with mains := { State.reset.mains with line := .down, returnFlag := true } }
        (fun t => t.mains.line == .acquiring && t.mains.good == 1 && t.mains.returnFlag) = true
      ∧ leaves .acquiringMissingCrossing (running 7) (fun t => t.mains.good == 0 && t.mains.runSum == 0) = true := by
  decide +kernel

theorem test_missing_crossing :
    leaves .missingCrossing (up false State.reset)
        (fun t => t.mains.missing == 1 && t.mains.refTime == 1010000 && t.mains.grid.map (·.half) == some 4) = true
      ∧ leaves .missingCrossing
          { up false State.reset with mains := { (up false State.reset).mains with
              freq := some .hz60, grid := some { boundary := 5, half := 7, length := 8 } } }
          (fun t => t.mains.boundaryDue && t.mains.refTime == 1008330) = true := by decide +kernel

/-- A record in flight wants tariff 4; the line is UP with a missing crossing. -/
theorem test_mains_loss :
    let s := up false (withRecords [{ plain 1 with desired := some 4, image := .pending .inFlight, inFlight := true }])
    leaves .mainsLoss { s with mains := { s.mains with missing := 1 } }
      (fun t => t.mains.line == .down && t.mains.returnFlag && t.lookup 1 ==
        some { plain 1 with desired := some 4 }) = true := by decide +kernel

/-! ## The boundary (R93 to R103) -/

theorem test_quiet_boundary :
    let s := up true State.reset
    leaves .slotBoundary
      { s with arbiter := { s.arbiter with slotHc := { active := 12, staged := some 24 } } }
      (fun t => t.arbiter.slotHc == { active := 24, staged := none } && !t.mains.boundaryDue
        && t.mains.grid == some { boundary := 5, half := 0, length := 24 }) = true := by decide +kernel

/-- A transaction in flight on coupler A with slots left. -/
def flight (job : Job) (source : Source) (remaining : Nat) : Context :=
  { job := job, source := source, coupler := .single .a, route := [], seq := 9, stage := .answer
    remaining := remaining, priority := 3, orphaned := false }

/-- An individual transaction of one hop in its second slot, and a group frame of two repeats at its first. -/
theorem test_stages_move :
    leaves .slotBoundary
        { up true (withRecords [plain 1]) with
          contexts := [{ flight (.set 1 7 4 [3]) .normal 4 with route := [5] }] }
        (fun t => t.contexts.map (·.stage) == [.relayOut] && t.contexts.map (·.remaining) == [3]
          && t.transmitter == none) = true
      ∧ leaves .slotBoundary { up true State.reset with contexts := [flight (.group 3 4 2) .urgent 3] }
        (fun t => t.contexts.map (·.stage) == [.repeated] && t.contexts.map (·.remaining) == [2]
          && t.transmitter == some { coupler := .single .a, bytes := groupFrame 9 3 4 1 }) = true := by decide +kernel

/-- One record whose entry stands at the head of the urgent queue. -/
def launching : State :=
  { up true (withRecords [{ plain 1 with desired := some 4, image := .pending .ownEntry }]) with
    urgent := [delivery 1 6] }

theorem test_boundary_launches :
    launching.contexts = [] ∧ launching.lookup 1 = some { plain 1 with desired := some 4, image := .pending .ownEntry }
      ∧ launching.arbiter.lineMask < 6
      ∧ leaves .slotBoundary launching (fun t => t.urgent == [] && t.lineSeq == 1
          && t.contexts.map (·.job) == [.set 1 7 4 [3]] && t.contexts.map (·.remaining) == [2]) = true := by
  decide +kernel

/-- A POLL, a PASS_SET and a group frame of two couplers launch from the normal queue. -/
theorem test_launches_of_other_kinds :
    let from' := fun (l : List Record) (w : Work) =>
      { up true (withRecords l) with
        normal := [{ work := w, priority := 3, origin := .request }]
        groups := State.reset.groups.set 3 { tariff := some 4, repeats := 2 } }
    let waits := { plain 1 with desired := some 4, image := .pending .refresh }
    leaves .slotBoundary (from' [plain 1] (.poll 1))
        (fun t => t.contexts.map (·.job) == [.poll 1 7] && t.normal == []
          && t.transmitter.map (·.bytes) == some (pollFrame 0 1 [])) = true
      ∧ leaves .slotBoundary (from' [{ plain 1 with cls := .pass, image := .none }] (.passDeliver 1 6))
        (fun t => t.contexts.map (·.job) == [.passSet 1 6 []] && recordAt 1 (fun r => r.image == .none && r.inFlight) t)
        = true
      ∧ (from' [waits] (.group 3)).members 3 ≠ []
      ∧ leaves .slotBoundary
        (from' [waits, { waits with slot := 2, addr := 2, coupler := .single .b, image := .confirmed },
          { waits with slot := 3, addr := 3, desired := some 5 }] (.group 3))
        (fun t => t.contexts.map (·.coupler) == [.bridged] && t.contexts.map (·.remaining) == [3]
          && t.table.map (·.mark) == [some 0, some 0, none]
          && t.table.map (·.image) == [.pending (.group 3), .confirmed, .pending .refresh]) = true := by decide +kernel

/-- Refreshes owed, the search to start at a slot. -/
def owing (pointer : Nat) (kind : RefreshKind) (l : List Record) : State :=
  { up true (withRecords l) with
    refresh := { State.reset.refresh with backlog := 1, pointer := pointer, kind := kind } }

theorem test_refresh_launches :
    let wants := { plain 1 with desired := some 4, image := .confirmed }
    (owing 5 .reassert [wants]).tableWf
      ∧ leaves .slotBoundary (owing 2 .reassert [wants, { wants with slot := 2, addr := 2 }])
        (fun t => t.contexts.map (·.job) == [.set 2 7 4 [3]] && t.refresh.inFlight == some 2 && t.lineSeq == 1
          && recordAt 2 (fun r => r.inFlight && r.image == .confirmed) t) = true
      ∧ leaves .slotBoundary (owing 5 .scrub [wants])
        (fun t => t.contexts.map (·.job) == [.scrub 1 7 none] && t.arbiter.reservation == some (7, 0)) = true
      ∧ leaves .slotBoundary (owing 5 .scrub [plain 1]) (fun t => t.contexts.map (·.job) == [.poll 1 7]) = true
      ∧ leaves .slotBoundary (owing 5 .reassert [{ plain 1 with cls := .pass, image := .none }])
        (fun t => t.contexts == [] && t.refresh.backlog == 0 && t.refresh.pointer == 5) = true := by
  refine ⟨by unfold State.tableWf; decide +kernel, ?_⟩
  decide +kernel

/-- Three records, on couplers A, B and C; coupler A is under its guard at this boundary. -/
def guarded : State :=
  let s := up true (withRecords [{ plain 1 with desired := some 4 },
    { plain 2 with desired := some 4, coupler := .single .b }, { plain 3 with desired := some 4, coupler := .single .c }])
  { s with arbiter := { s.arbiter with freeA := some 6, lineMask := 1 } }

/-- A group entry of priority 6. -/
def frameEntry (g : Group) : Entry := { work := .group g, priority := 6, origin := .request }

theorem guarded_weighs (contexts : List Context) (urgent normal : List Entry) (refresh : Refresh)
    (h : contexts = [] ∨ contexts = [{ flight (.poll 3 7) .normal 2 with coupler := .single .c }]) :
    ({ guarded with contexts := contexts, urgent := urgent, normal := normal, refresh := refresh } : State).weighs := by
  rcases h with rfl | rfl
  · exact ⟨rfl, fun c h => absurd h List.not_mem_nil⟩
  · refine ⟨rfl, fun c h => ?_⟩
    cases List.mem_singleton.mp h
    exact ⟨by decide, rfl, fun _ _ _ e => by cases e⟩

/-- What `State.chooses` asks, in terms that can be evaluated. -/
theorem chooses_of {s : State} {q : QueueId} {pre post : List Entry} {e : Entry} (at' : s.queue q = pre ++ e :: post)
    (before : ∀ x ∈ pre, s.weighEntry x ≠ .candidate) (h : s.weighEntry e = .candidate)
    (normal : q = .normal → (∀ x ∈ s.urgent, s.weighEntry x ≠ .candidate) ∧ (s.refreshWaits ∨ s.refreshEmpty)) :
    s.chooses q pre e post := by
  refine ⟨at', fun x hx p => before x hx (weighEntry_candidate.mpr p), weighEntry_candidate.mp h, fun n => ?_⟩
  exact ⟨fun x hx p => (normal n).1 x hx (weighEntry_candidate.mpr p), (normal n).2⟩

/-- A masked entry and one on a coupler that is not free keep their places, a GROUP entry without members goes, and the
entry behind them launches. -/
theorem test_scan_goes_on :
    let s := { guarded with
      urgent := [{ delivery 3 6 with priority := 1 }, delivery 1 6, frameEntry 9, delivery 2 6, delivery 3 6] }
    s.weighs
      ∧ s.chooses .urgent [{ delivery 3 6 with priority := 1 }, delivery 1 6, frameEntry 9] (delivery 2 6) [delivery 3 6]
      ∧ leaves .slotBoundary s (fun t => t.contexts.map (·.job) == [.set 2 7 4 [3]] && t.lineSeq == 1
        && t.urgent == [{ delivery 3 6 with priority := 1 }, delivery 1 6, delivery 3 6]) = true := by
  refine ⟨guarded_weighs _ _ _ _ (.inl rfl), chooses_of rfl ?_ ?_ nofun, ?_⟩
  all_goals decide +kernel

/-- An urgent entry whose coupler is held is overtaken by a normal entry: with no refresh owed, with a refresh whose
target's coupler is held, and with an empty refresh. -/
theorem test_urgent_is_overtaken :
    let behind := fun (r : Refresh) => ({ guarded with
      urgent := [delivery 1 6, frameEntry 9], normal := [frameEntry 9, delivery 2 3], refresh := r } : State)
    let owed := { guarded.refresh with backlog := 1 }
    let launched := fun (t : State) => t.contexts.map (·.job) == [.set 2 7 4 [3]] && t.urgent == [delivery 1 6]
      && t.normal == []
    (behind guarded.refresh).weighs ∧ (behind guarded.refresh).chooses .normal [frameEntry 9] (delivery 2 3) []
      ∧ leaves .slotBoundary (behind guarded.refresh) (fun t => launched t && t.refresh == guarded.refresh) = true
      ∧ (behind owed).chooses .normal [frameEntry 9] (delivery 2 3) []
      ∧ leaves .slotBoundary (behind owed) (fun t => launched t && t.refresh == owed) = true := by
  refine ⟨guarded_weighs _ _ _ _ (.inl rfl), chooses_of rfl ?_ ?_ fun _ => ⟨?_, .inl (.inl ?_)⟩, ?_,
    chooses_of rfl ?_ ?_ fun _ => ⟨?_, .inl (.inr ⟨?_, { plain 1 with desired := some 4 }, ⟨?_, ?_, rfl, ?_⟩, ?_⟩)⟩, ?_⟩
  case refine_4 => unfold State.offers; decide +kernel
  case refine_9 => unfold State.tableWf; decide +kernel
  case refine_13 => exact fun h => absurd (admits_iff.mpr h) (by decide +kernel)
  all_goals decide +kernel

/-- The normal queue behind an empty refresh. -/
theorem test_empty_refresh_goes_on :
    let s := { owing 5 .reassert [{ plain 1 with inFlight := true, coupler := .single .a },
        { plain 2 with cls := .pass, image := .none, coupler := .single .b }] with
      normal := [{ work := .passDeliver 2 6, priority := 3, origin := .request }] }
    s.weighs ∧ s.chooses .normal [] { work := .passDeliver 2 6, priority := 3, origin := .request } []
      ∧ leaves .slotBoundary s (fun t => t.contexts.map (·.job) == [.passSet 2 6 []] && t.refresh.backlog == 0
        && t.refresh.pointer == 5) = true := by
  refine ⟨⟨rfl, fun c h => absurd h List.not_mem_nil⟩, chooses_of rfl ?_ ?_ fun _ => ⟨?_, .inr ⟨?_, ?_⟩⟩, ?_⟩
  case refine_4 => unfold State.offers; decide +kernel
  all_goals decide +kernel

/-- Beside a POLL on coupler C, with PIPELINE on: a SET on coupler B launches past one for coupler C, and a group frame
on coupler B; a BRIDGED frame does not, nor does anything with PIPELINE off, beside a scrub, or with a value staged. -/
theorem test_second_in_flight :
    let poll := { flight (.poll 3 7) .normal 2 with coupler := .single .c }
    let beside := fun (on : Bool) (l : List Entry) => ({ guarded with
      arbiter := { guarded.arbiter with pipeline := { active := on, staged := none }, freeA := none }
      groups := guarded.groups.set 3 { tariff := some 4, repeats := 0 }
      contexts := [poll], urgent := l } : State)
    let groupOnB := fun (s : State) =>
      { s with table := s.table.map fun r => if r.addr = 2 then r else { r with intended := [] } }
    let s := beside true [delivery 3 6, delivery 2 6]
    let same := fun (t : State) => t.contexts.map (·.job) == [.poll 3 7] && t.lineSeq == 0
    s.weighs ∧ s.chooses .urgent [delivery 3 6] (delivery 2 6) []
      ∧ leaves .slotBoundary s (fun t => t.contexts.map (·.job) == [.poll 3 7, .set 2 7 4 [3]]
        && t.contexts.map (·.remaining) == [1, 2] && t.urgent == [delivery 3 6] && t.lineSeq == 1) = true
      ∧ (groupOnB (beside true [frameEntry 3])).chooses .urgent [] (frameEntry 3) []
      ∧ leaves .slotBoundary (groupOnB (beside true [frameEntry 3]))
        (fun t => t.contexts.map (·.job) == [.poll 3 7, .group 3 4 0]) = true
      ∧ leaves .slotBoundary (beside true [frameEntry 3]) (fun t => same t && t.urgent == [frameEntry 3]) = true
      ∧ leaves .slotBoundary (beside false [delivery 2 6]) same = true
      ∧ leaves .slotBoundary
        { s with contexts := [{ poll with job := .scrub 3 7 none }] } (fun t => t.lineSeq == 0) = true
      ∧ leaves .slotBoundary { s with contexts := [{ poll with coupler := .bridged }] } same = true
      ∧ leaves .slotBoundary { s with contexts := [{ poll with job := .group 9 4 3 }], urgent := [frameEntry 9] }
        (fun t => t.lineSeq == 0 && t.urgent == [frameEntry 9]) = true
      ∧ leaves .slotBoundary
        { s with arbiter := { s.arbiter with guard := { active := 1, staged := some 2 } } } same = true
      ∧ leaves .slotBoundary { s with contexts := [poll, { poll with seq := 10, coupler := .single .a }] }
        (fun t => t.contexts.length == 2 && t.lineSeq == 0) = true := by
  refine ⟨⟨rfl, fun c h => ?_⟩, chooses_of rfl ?_ ?_ nofun, ?_, chooses_of rfl ?_ ?_ nofun, ?_⟩
  · cases List.mem_singleton.mp h
    exact ⟨by decide, rfl, fun _ _ _ e => by cases e⟩
  all_goals decide +kernel

/-- A refresh beside a POLL, past an urgent entry on its coupler; and a boundary at which nothing passes. -/
theorem test_refresh_beside :
    let s := { guarded with
      arbiter := { guarded.arbiter with pipeline := { active := true, staged := none }, freeA := none }
      refresh := { guarded.refresh with backlog := 1, pointer := 1 }
      contexts := [{ flight (.poll 3 7) .normal 2 with coupler := .single .c }]
      urgent := [delivery 3 6, frameEntry 9] }
    let r := { plain 1 with desired := some 4 }
    s.weighs ∧ (∀ e ∈ s.urgent, ¬s.passes e) ∧ s.offers ∧ s.tableWf ∧ s.isTarget r
      ∧ s.lineTakes (s.scrubs r) r.coupler
      ∧ leaves .slotBoundary s (fun t => t.contexts.map (·.job) == [.poll 3 7, .set 1 7 4 [3]]
        && t.urgent == [delivery 3 6] && t.refresh.inFlight == some 1) = true
      ∧ leaves .slotBoundary { s with refresh := { s.refresh with backlog := 0 } }
        (fun t => t.contexts.map (·.job) == [.poll 3 7] && t.urgent == [delivery 3 6] && t.lineSeq == 0) = true := by
  refine ⟨⟨rfl, fun c h => ?_⟩, fun e h p => ?_, ?_, ?_, ⟨?_, ?_, rfl, ?_⟩, admits_iff.mp ?_, ?_⟩
  · cases List.mem_singleton.mp h
    exact ⟨by decide, rfl, fun _ _ _ e => by cases e⟩
  · revert e
    simp only [← weighEntry_candidate]
    decide +kernel
  · unfold State.offers; decide +kernel
  · unfold State.tableWf; decide +kernel
  all_goals decide +kernel

/-- A RETRY entry carries its route; ATTEMPTS failures turn to the alternate one. -/
theorem test_routes :
    ({ delivery 1 6 with origin := .retry [5] } : Entry).route 3 (plain 1) = [5]
      ∧ (delivery 1 6).route 3 { plain 1 with primary := [8], alternate := some [9], failures := 3 } = [9]
      ∧ (delivery 1 6).route 3 { plain 1 with primary := [8], alternate := some [9], failures := 2 } = [8]
      ∧ (delivery 1 6).route 3 { plain 1 with primary := [8], alternate := some [9], failures := 6, reach := .lost }
          = [8] := by decide

theorem test_full_mask :
    leaves .slotBoundary { launching with arbiter := { launching.arbiter with lineMask := 7 } }
      (fun t => t.urgent == [delivery 1 6] && t.lineSeq == 0 && t.contexts == []) = true := by decide +kernel

/-! ## Listening and ends (R22, R23, R54 to R60, R109 to R118, R133) -/

/-- A SET of record 1 in its listening slot. -/
def listening : State :=
  { up false (withRecords [{ plain 1 with desired := some 4, image := .pending .inFlight, inFlight := true }]) with
    contexts := [{ job := .set 1 7 4 [3], source := .normal, coupler := .single .a, route := [], seq := 9
                   stage := .answer, remaining := 1, priority := 3, orphaned := false }] }

/-- The answer of record 1 holding a tariff. -/
def answerOf (held : Tariff) (seq : Seq) : AckFrame :=
  { seq := seq, addr := 1, check := 5, held := held, restored := true, relayFault := false, localOverride := false
    holdExpired := false, quality := 8 }

theorem test_ack_reads_back : readLine (answerOf 4 9).bytes = .ack (answerOf 4 9) := by decide +kernel

theorem test_receiver :
    listening.listeners ≠ []
      ∧ leaves (.lineFrameReceived .b [] 3) listening (fun t => t.receivers.b == .energy) = true
      ∧ leaves (.lineFrameReceived .b (answerOf 4 9).bytes 3) listening
          (fun t => t.receivers.b == .ack (answerOf 4 9) 3 && t.counters.stale == 0) = true
      ∧ leaves (.lineFrameReceived .b (answerOf 4 8).bytes 3) listening
          (fun t => t.receivers.b == .ack (answerOf 4 8) 3 && t.counters.stale == 1) = true
      ∧ leaves (.lineFrameReceived .b (pollFrame 9 1 []) 3) listening
          (fun t => t.receivers.b == .other && t.counters.stale == 1) = true
      ∧ leaves (.lineFrameReceived .b [] 3) (up false State.reset) (fun t => t == up false State.reset) = true := by
  decide +kernel

theorem test_receiver_first_frame_counts :
    let s := { listening with receivers := { listening.receivers with b := .other } }
    leaves (.lineFrameReceived .b (answerOf 4 9).bytes 3) s (fun t => t == s) = true := by decide +kernel

theorem test_best_result :
    combine (.single .b) [(.a, .ack (answerOf 4 9) 7), (.b, .ack (answerOf 4 9) 7), (.c, .ack (answerOf 4 9) 6)]
        = .ack (answerOf 4 9) .b 7
      ∧ combine .bridged [(.a, .garbled), (.b, .ack (answerOf 4 9) 0), (.c, .ack (answerOf 4 9) 0)]
        = .ack (answerOf 4 9) .b 0
      ∧ combine .bridged [(.a, .garbled), (.b, .authFail), (.c, .silent)] = .authFail
      ∧ combine .bridged [(.a, .garbled), (.b, .silent), (.c, .silent)] = .garbled := by decide

/-- A tie that leaves the own coupler out goes to the first in order; and what one frame is for four transactions. -/
theorem test_ties_and_classes :
    combine (.single .a) [(.a, .ack (answerOf 4 9) 6), (.b, .ack (answerOf 4 9) 7), (.c, .ack (answerOf 4 9) 7)]
        = .ack (answerOf 4 9) .b 7
      ∧ combine (.single .c) [(.a, .ack (answerOf 4 9) 15), (.b, .silent), (.c, .ack (answerOf 4 9) 15)]
        = .ack (answerOf 4 9) .c 15
      ∧ classify 9 1 5 (.ack (answerOf 4 9) 11) = .ack (answerOf 4 9) 11
      ∧ classify 9 1 6 (.ack (answerOf 4 9) 11) = .authFail ∧ classify 8 1 5 (.ack (answerOf 4 9) 11) = .silent
      ∧ classify 9 2 5 (.ack (answerOf 4 9) 11) = .silent ∧ classify 9 1 5 .energy = .garbled := by decide

/-- The slot of `listening` closes with what its paths have heard. -/
def closing (heard : PathHeard) : State :=
  { listening with mains := { listening.mains with boundaryDue := true }
                   receivers := { listening.receivers with a := heard } }

theorem test_matching_ack :
    (closing (.ack (answerOf 4 9) 11)).nextEnd = listening.contexts.head?
      ∧ (∃ c, (closing (.ack (answerOf 4 9) 11)).nextEnd = some c
          ∧ (closing (.ack (answerOf 4 9) 11)).lineResult c 1 = .ack (answerOf 4 9) .a 11)
      ∧ leaves .transactionEnd (closing (.ack (answerOf 4 9) 11)) (fun t => t.contexts == []
          && recordAt 1 (fun r => r.image == .confirmed && r.held == some 4 && r.confirmed == some [3] && r.restored
              && !r.inFlight) t) = true := by
  refine ⟨by decide +kernel, ⟨_, rfl, by decide +kernel⟩, by decide +kernel⟩

/-- The slot of a transaction for one record closes. -/
def ending (heard : PathHeard) (c : Context) (r : Record) : State :=
  { closing heard with table := [r], contexts := [c] }

/-- A record in flight that wants tariff 4, and an ACK of its endpoint. -/
def flying (i : Image) : Record := { plain 1 with desired := some 4, image := i, inFlight := true }

/-- The endpoint of record 1 has answered with a tariff. -/
def heardOf (held : Tariff) : PathHeard := .ack (answerOf held 9) 11

/-- The entry that a repair places at priority 3. -/
def repairEntry : Entry := { work := .deliver 1, priority := 3, origin := .repair }

theorem test_ack_of_set :
    let set := flight (.set 1 7 4 [3]) .normal 1
    let extension := flight (.scrub 1 7 (some { tariff := 4, list := [8] })) .refresh 1
    leaves .transactionEnd (ending (heardOf 4) extension { flying (.pending .inFlight) with coupler := .bridged })
        (recordAt 1 fun r => r.image == .confirmed && r.confirmed == some [8] && r.coupler == .single .a
          && r.source == .learned) = true
      ∧ leaves .transactionEnd (ending (heardOf 0) set (flying (.pending .inFlight)))
        (fun t => t.normal == [repairEntry] && recordAt 1 (fun r => r.image == .pending .ownEntry) t) = true
      ∧ leaves .transactionEnd (ending (heardOf 0) set { flying (.pending .inFlight) with enforce := false })
        (fun t => t.normal == [] && recordAt 1 (fun r => r.image == .unknown && r.mismatch) t) = true
      ∧ leaves .transactionEnd (ending (heardOf 4) set { flying (.pending .inFlight) with revision := 8 })
        (fun t => t.normal == [repairEntry]) = true
      ∧ leaves .transactionEnd (ending (heardOf 4) set { flying (.pending .refresh) with revision := 8 })
        (fun t => t.normal == [] && recordAt 1 (fun r => r.image == .pending .refresh) t) = true
      ∧ leaves .transactionEnd (ending (heardOf 4) { set with orphaned := true } (flying (.pending .inFlight)))
        (fun t => t.normal == [repairEntry]) = true
      ∧ leaves .transactionEnd (ending (heardOf 4) { set with orphaned := true } (flying .unknown))
        (fun t => t.normal == [] && recordAt 1 (fun r => r.image == .unknown && r.confirmed == some [3]) t) = true := by
  decide +kernel

/-- A state with a value of each line parameter staged. -/
def staging (s : State) : State :=
  { s with arbiter := { s.arbiter with
      slotHc := { active := 12, staged := some 24 }, pipeline := { active := false, staged := some true }
      guard := { active := 1, staged := some 3 } } }

/-- The staged values apply where a DELIVER entry launches and where a SET ends, and wait beside one that goes on. -/
theorem test_staged_values :
    let applied := fun (t : State) => t.arbiter.slotHc == { active := 24, staged := none }
      && t.arbiter.pipeline == { active := true, staged := none } && t.arbiter.guard == { active := 3, staged := none }
      && t.mains.grid.map (·.length) == some 24
    let ends := staging (ending (heardOf 4) (flight (.set 1 7 4 [3]) .normal 1) (flying (.pending .inFlight)))
    leaves .slotBoundary (staging launching) (fun t => applied t && t.contexts.map (·.job) == [.set 1 7 4 [3]]) = true
      ∧ (ends.contexts.all fun c => c.remaining == 1) = true
      ∧ leaves .slotBoundary ends (fun t => applied t && t.contexts == []) = true
      ∧ leaves .slotBoundary { staging guarded with contexts := [flight (.poll 3 7) .normal 2], urgent := [delivery 2 6] }
        (fun t => t.arbiter.slotHc == { active := 12, staged := some 24 } && t.arbiter.pipeline.staged == some true
          && t.arbiter.guard == { active := 1, staged := some 3 } && t.mains.grid.map (·.length) == some 12
          && t.lineSeq == 0) = true := by decide +kernel

theorem test_ack_of_poll_and_passSet :
    let poll := flight (.poll 1 7) .normal 1
    leaves .transactionEnd (ending (heardOf 4) poll (flying .unknown)) (recordAt 1 fun r => r.image == .confirmed) = true
      ∧ leaves .transactionEnd (ending (heardOf 0) poll { flying (.pending .inFlight) with enforce := false })
        (fun t => t.normal == [repairEntry]) = true
      ∧ leaves .transactionEnd (ending (heardOf 0) poll { flying .confirmed with enforce := false })
        (recordAt 1 fun r => r.image == .unknown && r.mismatch) = true
      ∧ leaves .transactionEnd (ending (heardOf 0) poll { flying .unknown with desired := none })
        (recordAt 1 fun r => r.image == .unknown && r.held == some 0 && !r.mismatch) = true
      ∧ leaves .transactionEnd
        (ending (heardOf 0) (flight (.passSet 1 6 []) .urgent 1) { plain 1 with cls := .pass, image := .none, inFlight := true })
        (recordAt 1 fun r => r.image == .none && r.confirmed == some []) = true := by decide +kernel

theorem test_failures_of_each_kind :
    let set := flight (.set 1 7 4 [3]) .normal 1
    let retry := fun w => [{ work := w, priority := 3, origin := .retry [] }]
    leaves .transactionEnd (ending .energy (flight (.poll 1 7) .normal 1) (flying .unknown))
        (fun t => t.counters.garbled == 1 && t.normal == retry (.poll 1) && recordAt 1 (fun r => r.image == .unknown) t)
        = true
      ∧ leaves .transactionEnd (ending (.ack { answerOf 4 9 with check := 6 } 11) (flight (.passSet 1 6 []) .urgent 1)
          { plain 1 with cls := .pass, image := .none, inFlight := true })
        (fun t => t.counters.authFail == 1 && t.urgent == retry (.passDeliver 1 6)) = true
      ∧ leaves .transactionEnd (ending .quiet { set with source := .refresh } (flying (.pending .inFlight)))
        (fun t => t.normal == [] && recordAt 1 (fun r => r.image == .pending .refresh && r.failures == 1) t) = true
      ∧ leaves .transactionEnd (fullNormal (ending .quiet set (flying (.pending .inFlight))))
        (fun t => t.counters.stranded == 1 && t.counters.queueFull == 0
          && recordAt 1 (fun r => r.image == .pending .refresh) t) = true
      ∧ leaves .transactionEnd (ending .quiet { set with orphaned := true } (flying (.pending .inFlight)))
        (fun t => t.normal == [repairEntry]) = true
      ∧ leaves .transactionEnd (ending .quiet { set with orphaned := true } (flying .unknown))
        (fun t => t.normal == [] && recordAt 1 (fun r => r.image == .unknown) t) = true
      ∧ leaves .scrubDecision (ending .quiet (flight (.scrub 1 7 none) .refresh 1) (flying .confirmed))
        (fun t => t.counters.silent == 1 && recordAt 1 (fun r => r.image == .confirmed && r.failures == 1) t) = true := by
  decide +kernel

/-- An end left to the boundary is taken first: the coupler of the transaction that ends is then under its guard. -/
theorem test_end_left_is_taken_first :
    let s := { ending .quiet (flight (.poll 1 7) .normal 1) (flying .unknown) with urgent := [] }
    leaves .slotBoundary { s with mains := (up true s).mains } (fun t => t.contexts == [] && t.arbiter.freeA == some 6
      && after .slotBoundary { s with mains := (up true s).mains }
        == (after .transactionEnd { s with mains := (up true s).mains }).bind (after .slotBoundary)) = true := by
  decide +kernel

/-- The end of a transaction: its coupler keeps the guard, a refresh is accounted. -/
theorem test_transaction_over :
    let s := ending .quiet (flight (.set 1 7 4 [3]) .refresh 1) (flying .confirmed)
    leaves .transactionEnd
      { s with refresh := { s.refresh with backlog := 2, inFlight := some 959 }
               arbiter := { s.arbiter with guard := { active := 1, staged := some 3 } } }
      (fun t => t.arbiter.freeA == some 8 && t.arbiter.freeB == none && t.refresh.backlog == 1
        && t.refresh.pointer == 0 && t.refresh.inFlight == none) = true := by decide +kernel

/-- Two failures make one short of ATTEMPTS, three make the record LOST. -/
def failing (n : Nat) (alternate : Option (List Addr)) : State :=
  { closing .quiet with table :=
      [{ plain 1 with desired := some 4, image := .pending .inFlight, inFlight := true, failures := n
                      alternate := alternate, restored := true }]
                        counts := State.reset.counts.set 2 1 }

theorem test_silent_set :
    (∃ c, (failing 1 none).nextEnd = some c ∧ (failing 1 none).lineResult c 1 = .silent)
      ∧ leaves .transactionEnd (failing 1 none) (fun t => t.counters.silent == 1 && t.normal ==
          [{ work := .deliver 1, priority := 3, origin := .retry [] }]
          && recordAt 1 (fun r => r.failures == 2 && r.image == .pending .ownEntry) t) = true
      ∧ leaves .transactionEnd (failing 2 none) (fun t => t.normal == []
          && recordAt 1 (fun r => r.reach == .lost && !r.restored && r.image == .pending .refresh) t) = true
      ∧ leaves .transactionEnd (failing 2 (some [9])) (fun t => t.normal ==
          [{ work := .deliver 1, priority := 3, origin := .retry [9] }]) = true
      ∧ leaves .transactionEnd (failing 5 (some [9])) (fun t => t.normal == []) = true := by
  refine ⟨⟨_, rfl, by decide +kernel⟩, by decide +kernel, by decide +kernel, by decide +kernel, by decide +kernel⟩

/-- The POLL part of a scrub closes on an answer. -/
def scrubbing (enforce : Bool) (held : Tariff) : State :=
  { closing (.ack (answerOf held 9) 11) with
    table := [{ plain 1 with desired := some 4, image := .confirmed, inFlight := true, enforce := enforce }]
    contexts := [{ job := .scrub 1 7 none, source := .refresh, coupler := .single .a, route := [], seq := 9
                   stage := .answer, remaining := 1, priority := 3, orphaned := false }]
    refresh := { State.reset.refresh with backlog := 3, inFlight := some 1 } }

theorem test_scrub_decision :
    (∃ c, (scrubbing true 0).nextEnd = some c ∧ (scrubbing true 0).contexts = [c]
        ∧ (scrubbing true 0).lineResult c 1 = .ack (answerOf 0 9) .a 11)
      ∧ leaves .scrubDecision (scrubbing true 4) (fun t => t.contexts == [] && t.refresh.backlog == 2
          && recordAt 1 (fun r => r.image == .confirmed) t) = true
      ∧ leaves .scrubDecision (scrubbing true 0) (fun t => t.contexts.map (·.stage) == [.extension]
          && t.contexts.map (·.remaining) == [2] && t.refresh.backlog == 3
          && recordAt 1 (fun r => r.image == .pending .inFlight) t) = true
      ∧ leaves .scrubDecision (scrubbing false 0) (fun t => t.contexts == [] && t.refresh.pointer == 2
          && recordAt 1 (fun r => r.image == .unknown && r.mismatch) t && t.sourceLevel 42) = true := by
  refine ⟨⟨_, rfl, by decide +kernel, by decide +kernel⟩, by decide +kernel, by decide +kernel, by decide +kernel⟩

theorem test_scrub_continues :
    let scrub := flight (.scrub 1 7 none) .refresh 1
    let goesOn := fun t : State => t.contexts.map (·.stage) == [.extension] && recordAt 1 (fun r =>
      r.image == .pending .inFlight && r.inFlight) t
    leaves .scrubDecision (ending (heardOf 4) scrub { flying .confirmed with revision := 8 }) goesOn = true
      ∧ leaves .scrubDecision (ending (heardOf 0) scrub { flying (.pending .inFlight) with enforce := false }) goesOn = true
      ∧ leaves .scrubDecision (ending (heardOf 0) { scrub with orphaned := true } (flying (.pending .inFlight)))
        (fun t => t.contexts == [] && t.normal == [repairEntry]) = true
      ∧ leaves .scrubDecision (ending (heardOf 0) { scrub with orphaned := true } (flying .unknown))
        (fun t => t.contexts == [] && recordAt 1 (fun r => r.image == .unknown && !r.mismatch) t) = true := by
  decide +kernel

/-- The reservation names the boundary at which the extension begins. -/
theorem test_extension_begins :
    let s := ending .quiet (flight (.scrub 1 7 (some { tariff := 4, list := [3] })) .refresh 2) (flying (.pending .inFlight))
    leaves .slotBoundary { s with arbiter := { s.arbiter with reservation := some (5, 9) } }
      (fun t => t.contexts == s.contexts && t.arbiter.reservation == none
        && t.transmitter == some { coupler := .single .a, bytes := setFrame 9 1 [] 4 [3] }) = true := by decide +kernel

/-- A frame of group 3 with tariff 4 closes over five kinds of record. -/
def framed : State :=
  let stored := { plain 1 with confirmed := some [3], desired := some 4, image := .pending (.group 3), mark := some 9 }
  { up true (withRecords
      [stored, { stored with slot := 2, addr := 2, mark := none, image := .unknown },
       { stored with slot := 3, addr := 3, cls := .pass, image := .none },
       { stored with slot := 4, addr := 4, image := .confirmed },
       { stored with slot := 5, addr := 5, confirmed := none, desired := some 1, image := .shared, mark := none }]) with
    contexts := [{ job := .group 3 4 0, source := .urgent, coupler := .single .a, route := [], seq := 9
                   stage := .outbound, remaining := 1, priority := 6, orphaned := false }] }

theorem test_group_frame_end :
    (∃ c, framed.nextEnd = some c ∧ c.job = .group 3 4 0)
      ∧ leaves .groupFrameEnd framed (fun t => t.contexts == []
          && t.table.map (·.image) == [.shared, .unknown, .none, .confirmed, .unknown]
          && t.table.map (·.held) == [some 4, some 4, none, some 4, none]
          && t.table.all fun r => r.mark == none) = true := by
  refine ⟨⟨_, rfl, rfl⟩, by decide +kernel⟩

/-- The rows of R79 and R80 that place a delivery, or do not: an own entry, a queued group, an own POLL entry, none;
DEFERRED; and a record that waited for the frame without storing the group. -/
theorem test_group_frame_end_places :
    let other := { plain 1 with confirmed := some [3], desired := some 1, image := .confirmed }
    let s := { framed with
      table := [{ other with image := .pending .ownEntry }, { other with slot := 2, addr := 2, image := .pending (.group 4) },
        { other with slot := 3, addr := 3 }, { other with slot := 4, addr := 4 },
        { other with slot := 5, addr := 5, cls := .deferred }, { other with slot := 6, addr := 6, desired := none, image := .unknown },
        { other with slot := 7, addr := 7, confirmed := some [], image := .pending (.group 3) }]
      normal := [delivery 1 3, { work := .group 4, priority := 3, origin := .request },
        { work := .poll 3, priority := 3, origin := .request }] }
    s.addrs.Nodup
      ∧ leaves .groupFrameEnd s (fun t => t.table.map (·.image) ==
          [.pending .ownEntry, .pending (.group 4), .pending .ownEntry, .pending .ownEntry, .pending .refresh, .unknown,
            .pending .ownEntry]
        && t.urgent.map (·.work) == [.deliver 4, .deliver 7] && t.normal == s.normal && t.arbiter.freeA == some 6) = true
      ∧ leaves .groupFrameEnd { s with urgent := List.replicate 32 (delivery 900 6) } (fun t =>
          t.table.map (·.image) == [.pending .ownEntry, .pending (.group 4), .pending .ownEntry, .pending .refresh,
            .pending .refresh, .unknown, .pending .refresh]) = true := by decide +kernel

/-! ## Time (R125, R141 to R149, R154) -/

/-- The clock stands at a day and a second; uptime 100. -/
def clocked (day second : Nat) (s : State) : State :=
  { s with timebase := { uptime := 100, clock := some { day := day, second := second }, checkDue := false } }

theorem test_second :
    leaves .secondEvent (clocked 9 86398 State.reset)
        (fun t => t.timebase == { uptime := 101, clock := some { day := 9, second := 86399 }, checkDue := true }) = true
      ∧ leaves .secondEvent (clocked 9 86399 State.reset)
        (fun t => t.timebase == { uptime := 101, clock := some { day := 10, second := 0 }, checkDue := true }) = true
      ∧ leaves .secondEvent (clocked 65535 86399 State.reset)
        (fun t => t.timebase == { uptime := 101, clock := some { day := 0, second := 0 }, checkDue := false }) = true
      ∧ leaves .secondEvent State.reset (fun t => t.timebase.uptime == 1 && t.timebase.clock == none) = true := by
  decide +kernel

theorem test_expiry :
    leaves .refreshIntervalExpiry { State.reset with refresh := { State.reset.refresh with timer := 0, backlog := 63 } }
        (fun t => t.refresh.backlog == 64 && t.refresh.timer == 20 && t.refresh.backlogLevel) = true
      ∧ leaves .refreshIntervalExpiry
          { State.reset with refresh := { State.reset.refresh with timer := 0, mode := .external, missed := 1023 } }
          (fun t => t.refresh.missed == 1023 && t.refresh.backlog == 0) = true := by decide +kernel

/-- Record 1 under an override that ends at uptime 100, record 2 under one that ends later. -/
def overriding : State :=
  let held := { plain 1 with desired := some 4, image := .confirmed
                             override := some { saved := 2, endsAt := 100, priority := 5 } }
  clocked 0 0 (withRecords
    [held, { held with slot := 2, addr := 2, override := some { saved := 2, endsAt := 101, priority := 5 } }])

theorem test_override_ends :
    overriding.addrs.Nodup
      ∧ leaves .overrideEndDue overriding (fun t => recordAt 1 (fun r => r.override == none && r.desired == some 2
          && r.image == .pending .ownEntry && r.revision == 8) t && t.lookup 2 == overriding.lookup 2) = true
      ∧ leaves .overrideEndDue { overriding with timebase := { overriding.timebase with uptime := 101 } } (fun t =>
          t.lookup 1 == overriding.lookup 1 && recordAt 2 (fun r => r.override == none) t) = true := by
  decide +kernel

/-- One entry due: a SET of record 1 at second 50. -/
def planned (daily : Bool) (day : Nat) : State :=
  { clocked day 60 (withRecords [plain 1]) with
    timebase := { uptime := 100, clock := some { day := day, second := 60 }, checkDue := true }
    plan := [{ id := 0, due := { day := 2, second := 50 }, daily := daily, target := .endpoint 1, action := .set 4
               priority := 3 }] }

theorem test_entry_fires :
    leaves .planEntryDue (planned false 2) (fun t => t.plan == [] && recordAt 1 (fun r => r.desired == some 4) t) = true
      ∧ leaves .planEntryDue (planned true 2) (fun t => t.plan.map (·.due) == [{ day := 3, second := 50 }]) = true
      ∧ leaves .planEntryDue (planned true 65535) (fun t => t.plan == []) = true := by decide +kernel

/-- A SET of unit 1 on day 2. -/
def entryAt (id second : Nat) (daily : Bool) (t : Tariff) : PlanEntry :=
  { id := id, due := { day := 2, second := second }, daily := daily, target := .endpoint 1, action := .set t
    priority := 3 }

/-- Two entries are due and one is not: the ONCE entry goes, the DAILY one is carried behind the other. -/
theorem test_plan_of_three :
    let p := { planned false 2 with plan := [entryAt 0 50 false 4, entryAt 2 60 true 5, entryAt 1 61 false 6] }
    p.planWf
      ∧ leaves .planEntryDue p (fun t =>
        t.plan == [entryAt 1 61 false 6, { entryAt 2 60 true 5 with due := { day := 3, second := 60 } }]
        && recordAt 1 (fun r => r.desired == some 5) t && t.normal.map (·.origin) == [.plan]) = true := by
  refine ⟨by unfold State.planWf; decide +kernel, ?_⟩
  decide +kernel

/-- A plan entry of priority 3. -/
def entryOf (target : PlanTarget) (action : PlanAction) : PlanEntry :=
  { id := 0, due := { day := 0, second := 0 }, daily := false, target := target, action := action, priority := 3 }

theorem test_firings :
    (entryOf (.range 0 1 256) (.set 4)).request? = some (.setRange 0 1 256 4 3)
      ∧ (entryOf (.endpoint 1) (.set 4)).request? = some (.set 0x8001 4 3)
      ∧ (fireEntry (entryOf (.endpoint 1) (.set 4)) (withRecords [plain 1])).normal
          = [{ work := .deliver 1, priority := 3, origin := .plan }]
      ∧ (fireEntry (entryOf (.endpoint 2) (.set 4)) State.reset).counters.planMiss = 1
      ∧ (fireEntry (entryOf (.group 4) .endOverride) overriding).counters.planMiss = 1
      ∧ recordAt 1 (fun r => r.desired == some 9 && r.override.map (·.saved) == some 4)
          (fireEntry (entryOf (.range 0 255 3) (.override 9 1))
            (withRecords [{ plain 1 with desired := some 4 }, plain 255])) = true
      ∧ (fireEntry (entryOf (.range 0 255 3) (.override 9 1)) (withRecords [plain 1])).counters.planMiss = 1
      ∧ recordAt 1 (fun r => r.desired == some 2 && r.override == none)
          (fireEntry (entryOf (.range 0 1 1) .endOverride) overriding) = true
      ∧ recordAt 1 (fun r => r == { plain 1 with desired := some 4 })
          (fireEntry (entryOf (.range 0 1 1) .endOverride) (withRecords [{ plain 1 with desired := some 4 }])) = true := by
  decide +kernel

/-- A range of three units, the middle one pinned: the delivery of each of the others is placed at its priority with
origin PLAN, by an END_OVERRIDE at the override's priority with origin OVERRIDE_END. -/
theorem test_firings_of_units :
    let wants := { plain 1 with desired := some 4, image := .confirmed }
    let shed := fun r : Record => { r with override := some { saved := 2, endsAt := 9, priority := 6 } }
    let s := withRecords [wants, { wants with slot := 2, addr := 2, pinned := true }, { wants with slot := 3, addr := 3 }]
    let placed := fun (p : Nat) (o : Origin) =>
      [({ work := .deliver 1, priority := p, origin := o } : Entry), { work := .deliver 3, priority := p, origin := o }]
    (fireEntry (entryOf (.range 0 1 3) (.set 9)) s).normal = placed 3 .plan
      ∧ (fireEntry (entryOf (.range 0 1 3) (.override 9 1)) s).normal = placed 3 .plan
      ∧ (fireEntry (entryOf (.range 0 1 3) .endOverride) { s with table := s.table.map shed }).urgent
          = placed 6 .overrideEnd := by
  decide +kernel

/-- The entry is one that R144 allows. -/
theorem test_firings_in_range :
    (entryOf (.range 0 1 256) (.set 4)).inRange ∧ (entryOf (.group 4) (.override 9 1440)).inRange := by
  refine ⟨⟨by decide, by decide, fun t m h => ?_, fun g u n h => ?_⟩,
    ⟨by decide, by decide, fun t m h => ?_, fun g u n h => ?_⟩⟩ <;> cases h <;> decide

/-! ## The host link (R173 to R178) -/

/-- The framer and the buffer in a state. -/
def framing (f : Framer) (b : Buffer) : State := { State.reset with link := { State.reset.link with framer := f, buffer := b } }

theorem test_framer :
    leaves .frameStart State.reset (fun t => t.link.framer == .receiving && t.link.buffer == .filling) = true
      ∧ leaves .frameDiscarded (framing .hunting (.holding .badLength))
          (fun t => t.link.framer == .discarding && t.counters.linkOverrun == 1) = true
      ∧ leaves .interByteGap (framing .receiving .filling)
          (fun t => t.link.framer == .hunting && t.link.buffer == .free && t.counters.linkGap == 1) = true
      ∧ leaves .interByteGap (framing .discarding .free) (fun t => t.link.framer == .hunting) = true
      ∧ leaves .discardEnd (framing .discarding .free) (fun t => t.link.framer == .hunting) = true := by
  decide +kernel

/-- The frame of SEGMENT_SET 3, its CRC written by the model. -/
def segmentFrame (crc : BitVec 16) : List Byte := [1, 0x03, 3] ++ bytes2 crc

theorem test_frames :
    leaves (.frameComplete (segmentFrame (crc16 [1, 0x03, 3]))) (framing .receiving .filling)
        (fun t => t.segment == 3 && t.link.replies == [{ kind := 0x83, payload := [0x00] }]) = true
      ∧ leaves (.frameComplete (segmentFrame 0)) (framing .receiving .filling)
        (fun t => t.counters.linkCrc == 1 && t.link.replies == [{ kind := 0xFF, payload := [0x15] }]) = true
      ∧ leaves (.frameComplete ([0, 0x1E] ++ bytes2 (crc16 [0, 0x1E]))) (framing .receiving .filling)
        (fun t => t.link.replies == [{ kind := 0xFE, payload := [0x16, 0x1E] }]) = true
      ∧ leaves (.frameComplete ([0, 0x03] ++ bytes2 (crc16 [0, 0x03]))) (framing .receiving .filling)
        (fun t => t.link.replies == [{ kind := 0x83, payload := [0x17] }]) = true := by decide +kernel

theorem test_frame_waits :
    let s := { framing .receiving .filling with link :=
      { (framing .receiving .filling).link with replies := [{ kind := 0x83, payload := [0] }] } }
    leaves (.frameComplete (segmentFrame 0)) s
      (fun t => t.link.buffer == .holding (.frame 0x03 [3] 0) && t.segment == 0) = true := by decide +kernel

/-- A LEN of 241 ends the frame, which waits or is answered; a target form above 1 is BAD_VALUE. -/
theorem test_frames_of_bad_form :
    let s := { framing .receiving .filling with link :=
      { (framing .receiving .filling).link with replies := [{ kind := 0x83, payload := [0] }] } }
    let ended := fun body : List Byte => Instr.frameComplete (body ++ bytes2 (crc16 body))
    leaves (.frameComplete [241]) s (fun t => t.link.buffer == .holding .badLength && t.counters.linkCrc == 0) = true
      ∧ leaves (.frameComplete [241]) (framing .receiving .filling)
        (fun t => t.counters.linkCrc == 1 && t.link.replies == [{ kind := 0xFF, payload := [0x15] }]) = true
      ∧ leaves (ended [7, 0x0E, 2, 0, 1, 4, 0, 1, 3]) (framing .receiving .filling)
        (fun t => t.link.replies == [{ kind := 0x8E, payload := [0x0F] }]) = true
      ∧ leaves (ended [3, 0x0F, 2, 0, 1]) (framing .receiving .filling)
        (fun t => t.link.replies == [{ kind := 0x8F, payload := [0x0F] }]) = true := by decide +kernel

theorem test_error_rows :
    leaves .frameError State.reset (fun t => t.link.replies == [{ kind := 0xFF, payload := [0x15] }]) = true
      ∧ leaves (.unknownRequest 0xAA) State.reset
          (fun t => t.link.replies == [{ kind := 0xFE, payload := [0x16, 0xAA] }]) = true := by decide +kernel

/-- The ready frame gone, replies and notices given. -/
def linked (replies : List LinkFrame) (fifo : List Notice) (b : Buffer) : State :=
  { State.reset with fifo := fifo, link := { State.reset.link with ready := false, replies := replies, buffer := b } }

theorem test_transmitter :
    leaves .linkTransmitterFree State.reset (fun t => !t.link.ready && t.link.sending.map (·.kind) == some 0x7F) = true
      ∧ leaves .linkTransmitterFree (linked [{ kind := 0x83, payload := [0] }] [{ line := 4, tag := 9 }] .free)
          (fun t => t.link.sending.map (·.kind) == some 0x83 && t.fifo.length == 1) = true
      ∧ leaves .linkTransmitterFree (linked [{ kind := 0x83, payload := [0] }] [] .filling)
          (fun t => t.link.sending.map (·.kind) == some 0x83 && t.link.buffer == .filling) = true
      ∧ leaves .linkTransmitterFree (linked [{ kind := 0x83, payload := [0] }] [] (.holding .badLength))
          (fun t => t.link.buffer == .free && t.link.replies == [{ kind := 0xFF, payload := [0x15] }]) = true
      ∧ leaves .linkTransmitterFree (linked [] [{ line := 4, tag := 9 }] .free)
          (fun t => t.link.sending == some { kind := 0x7E, payload := [4, 9] } && t.fifo == []) = true
      ∧ leaves .linkTransmitterFree (linked [] [] .free) (fun t => t.link.sending == none) = true := by
  decide +kernel

/-! ## Requests -/

/-- One record that wants tariff 4. -/
def one (i : Image) : State := withRecords [{ plain 1 with desired := some 4, image := i }]

theorem test_reading :
    leaves (.status 0) (one .confirmed) (fun t => t.table == (one .confirmed).table) = true
      ∧ leaves (.status 1) { State.reset with counters := { Counters.zero with stale := 4 } }
          (fun t => t.counters == Counters.zero) = true
      ∧ answers (.status 2) State.reset [0x0F] (fun _ => true) = true
      ∧ addrOf (one .confirmed).segment (unit 1) = some 1
      ∧ answers (.query (unit 2)) (one .confirmed) [0x09] (fun _ => true) = true
      ∧ answers (.groupQuery 32) State.reset [0x0F] (fun _ => true) = true
      ∧ answers (.planList 64) State.reset [0x0F] (fun _ => true) = true
      ∧ leaves .noticeStatus State.reset (fun t => t.link.replies.map (·.payload.length) == [190]) = true
      ∧ leaves (.query (unit 1)) (one .confirmed) (fun t => t.link.replies.map (·.payload.length) == [53]) = true := by
  decide +kernel

theorem test_bad_fields :
    addrOf 0 0x0100 = none ∧ tariffOf 16 = none ∧ priorityOf 0 = none ∧ priorityOf 8 = none ∧ minutesOf 1441 = none
      ∧ minutesOf 0 = none ∧ groupOf 32 = none ∧ targetGroup 0x0100 = none
      ∧ answers (.set 0x0100 4 3) State.reset [0x0F] (fun _ => true) = true
      ∧ answers (.forget (unit 9)) State.reset [0x09] (fun _ => true) = true
      ∧ answers (.setRange 0 0 257 4 3) State.reset [0x0F] (fun _ => true) = true
      ∧ answers (.setRange 8 0 1 4 3) State.reset [0x0F] (fun _ => true) = true
      ∧ answers (.setRange 0xFE 0 1 4 3) State.reset [0x0F] (fun _ => true) = true
      ∧ answers (.set (unit 1) 16 3) (one .confirmed) [0x0F] (fun _ => true) = true := by decide +kernel

theorem test_configure :
    pairsOk [(1, 24), (8, 30), (11, 1)] = true ∧ pairsOk [(1, 24), (1, 24)] = false ∧ pairsOk [(4, 8)] = false
      ∧ leaves (.configure [(1, 24), (8, 30), (11, 1)]) State.reset (fun t =>
          t.arbiter.slotHc == { active := 12, staged := some 24 } && t.refresh.timer == 30
            && t.refresh.limit == 1 && t.lastCode == some 0x06) = true
      ∧ answers (.configure [(4, 8)]) State.reset [0x0F] (fun t => t.attempts == 3) = true := by decide +kernel

theorem test_configure_redecodes :
    let s := withRecords [plain 1, { plain 2 with inFlight := true }, { plain 3 with source := .fixed }]
    answers (.configure [(5, 4)]) s [0x00, 1, 0, 1, 1, 0, 1] (fun t => t.table.map (·.redecodeDue) ==
        [false, true, false] && t.table.map (·.coupler) == [.single .a, .single .a, .single .a]) = true
      ∧ answers (.configure [(5, 3), (7, 1)]) { s with refresh := { s.refresh with missed := 64 } }
        [0x00, 0, 0, 0, 0, 0, 0] (fun t => t.table == s.table && t.refresh.backlogLevel) = true := by decide +kernel

/-- Window 1 before window 2, and DEFAULT_COUPLER where none contains the address. -/
theorem test_decode_order :
    let w := fun (x : Phase) (on : Bool) => ({ base := 5, limit := 9, coupler := x, enabled := on } : Window)
    let s := { State.reset with
      windows := ((State.reset.windows.set 0 (w .a false)).set 1 (w .b true)).set 2 (w .c true) }
    s.decodeCoupler 9 = some (.single .b) ∧ s.decodeCoupler 10 = some .bridged := by decide +kernel

theorem test_segment_and_window :
    answers (.segmentSet 7) State.reset [0x00] (fun t => t.segment == 7) = true
      ∧ answers (.segmentSet 8) State.reset [0x0F] (fun t => t.segment == 0) = true
      ∧ answers (.windowSet 0 (unit 0) (unit 9) 1 1) (withRecords [plain 1]) [0, 0, 1, 0, 0, 0]
          (recordAt 1 fun r => r.coupler == .single .b) = true
      ∧ answers (.windowSet 7 (unit 9) (unit 0) 1 1) State.reset [0x0F] (fun _ => true) = true := by decide +kernel

/-- The window, coupler, flag and addresses of WINDOW_SET just past their ranges, and each of its three counts. -/
theorem test_window_forms :
    let refused := fun (i : Instr) => answers i State.reset [0x0F] fun t => t.windows == State.reset.windows
    let s := { withRecords [plain 1, { plain 2 with inFlight := true }, { plain 3 with source := .fixed }, plain 12] with
      defaultCoupler := none }
    refused (.windowSet 8 (unit 0) (unit 9) 1 1) = true ∧ refused (.windowSet 0 (unit 0) (unit 9) 3 1) = true
      ∧ refused (.windowSet 0 (unit 0) (unit 9) 2 2) = true ∧ refused (.windowSet 0 0x0100 (unit 9) 2 1) = true
      ∧ refused (.windowSet 0 (unit 0) 0x0100 2 1) = true
      ∧ answers (.windowSet 0 (unit 0) (unit 9) 1 1) s [0, 0, 2, 1, 0, 1] (fun t =>
        t.table.map (·.redecodeDue) == [false, true, false, false]
          && t.table.map (·.coupler) == [.single .b, .single .a, .single .a, .single .a]
          && recordAt 12 (fun r => r.source == .window) t) = true := by decide +kernel

/-- ENROL of unit 1 with coupler A, tariff 4. -/
def enrolling (cls assumed : Byte) (tariff : Byte) : EnrolFields :=
  { addr := unit 1, check := 5, cls := cls, enforce := 1, pinned := 0, primary := { count := 0, hop1 := 0, hop2 := 0 }
    alternate := { count := 0xFF, hop1 := 0, hop2 := 0 }, fixedCoupler := 0
    groups := { count := 1, g0 := 3, g1 := 0, g2 := 0, g3 := 0 }, noticeGroup := 2, initialTariff := tariff
    assumedHeld := assumed, fresh := 1, priority := 3 }

theorem test_enrol :
    enrolEncodingOk 0 (enrolling 0 0 4) = true ∧ enrolRefusal (enrolling 0 0 4) 1 State.reset = none
      ∧ State.reset.enrolCoupler 1 0 = some (.single .a, .fixed)
      ∧ leaves (.enrol (enrolling 0 0 4)) State.reset (fun t => t.lastCode == some 0x02
          && recordAt 1 (fun r => r.slot == 0 && r.image == .pending .ownEntry && r.confirmed == some []) t) = true
      ∧ leaves (.enrol (enrolling 0 0 4)) (fullNormal State.reset) (fun t => t.lastCode == some 0x04
          && t.counters.stranded == 1 && t.counters.queueFull == 1 && t.normal.length == 128) = true
      ∧ answers (.enrol { enrolling 0 0 4 with priority := 7, noticeGroup := 7 }) State.reset
          [0x02, 0, 0, 0, 2, 2, 1, 0xFF] (fun t => t.urgent == [delivery 1 7] && recordAt 1 (fun r => r.noticeGroup == 7) t)
        = true
      ∧ leaves (.enrol (enrolling 1 0 4)) State.reset (fun t => t.lastCode == some 0x04) = true
      ∧ leaves (.enrol (enrolling 1 1 4)) State.reset
          (recordAt 1 fun r => r.image == .confirmed && r.held == some 4) = true
      ∧ leaves (.enrol (enrolling 2 0 0xFF)) State.reset (recordAt 1 fun r => r.image == .none) = true
      ∧ leaves (.enrol (enrolling 0 0 0xFF)) State.reset (recordAt 1 fun r => r.image == .unknown) = true := by
  decide +kernel

theorem test_enrol_refusals :
    let f := enrolling 0 0 4
    answers (.enrol { f with cls := 3 }) State.reset [0x0F] (fun _ => true) = true
      ∧ answers (.enrol { f with primary := { count := 3, hop1 := 0, hop2 := 0 } }) State.reset [0x0E] (fun _ => true)
        = true
      ∧ answers (.enrol { f with primary := { count := 3, hop1 := 0x0100, hop2 := 0 } }) State.reset [0x0E]
        (fun _ => true) = true
      ∧ answers (.enrol { f with check := 16 }) State.reset [0x0F] (fun _ => true) = true
      ∧ answers (.enrol { f with primary := { count := 1, hop1 := unit 1, hop2 := 0 } }) State.reset [0x0E]
        (fun _ => true) = true
      ∧ answers (.enrol f) (withRecords [plain 1]) [0x0A] (fun _ => true) = true
      ∧ answers (.enrol { f with fixedCoupler := 0xFF }) { State.reset with defaultCoupler := none } [0x0D]
        (fun _ => true) = true := by decide +kernel

/-- AMEND of unit 1 that changes nothing but what is given. -/
def amending (primary : RouteField) (fixedCoupler cls : Byte) : AmendFields :=
  { addr := unit 1, cls := cls, enforce := 0xFF, pinned := 0xFF, primary := primary
    alternate := { count := 0xFE, hop1 := 0, hop2 := 0 }, fixedCoupler := fixedCoupler
    groups := { count := 0xFF, g0 := 0, g1 := 0, g2 := 0, g3 := 0 }, noticeGroup := 0xFF, priority := 3 }

theorem test_amend :
    let s := withRecords [{ plain 1 with failures := 2, desired := some 4 }]
    let f := amending { count := 1, hop1 := unit 5, hop2 := 0 } 3 0xFF
    amendEncodingOk s.segment f = true ∧ amendRefusal f { plain 1 with failures := 2, desired := some 4 } s = none
      ∧ leaves (.amend f) s (recordAt 1 fun r => r.primary == [5] && r.failures == 0 && r.coupler == .bridged
          && r.source == .fixed && r.desired == some 4) = true
      ∧ leaves (.amend (amending { count := 0xFF, hop1 := 0, hop2 := 0 } 0xFE 2)) s (recordAt 1 fun r =>
          r.cls == .pass && r.image == .none && r.revision == 8 && r.failures == 2) = true := by decide +kernel

/-- The changes of class, with the cover and the entries they leave. -/
theorem test_amend_classes :
    let as := fun cls => Instr.amend (amending { count := 0xFF, hop1 := 0, hop2 := 0 } 0xFE cls)
    let waits := { plain 1 with desired := some 4, image := .pending .refresh }
    leaves (as 1) { one (.pending .ownEntry) with normal := [delivery 1 3] }
        (fun t => t.normal == [] && recordAt 1 (fun r => r.cls == .deferred && r.image == .pending .refresh) t) = true
      ∧ leaves (as 1) { one (.pending .ownEntry) with normal := [{ delivery 1 3 with work := .poll 1 }] }
        (fun t => t.normal.length == 1 && recordAt 1 (fun r => r.image == .pending .ownEntry) t) = true
      ∧ leaves (as 0) (withRecords [{ waits with cls := .deferred }])
        (fun t => t.normal == [delivery 1 3] && recordAt 1 (fun r => r.image == .pending .ownEntry) t) = true
      ∧ leaves (as 0) (fullNormal (withRecords [{ waits with cls := .deferred }]))
        (fun t => t.counters.queueFull == 1 && t.counters.stranded == 0) = true
      ∧ leaves (as 0) (withRecords [{ waits with cls := .deferred, reach := .lost }])
        (recordAt 1 fun r => r.cls == .immediate && r.image == .pending .refresh) = true
      ∧ leaves (as 0) { withRecords [{ plain 1 with cls := .pass, image := .none }] with
            normal := [{ delivery 1 3 with work := .passDeliver 1 4 }] }
        (fun t => t.normal == [] && recordAt 1 (fun r => r.image == .unknown && r.desired == none) t) = true := by
  decide +kernel

/-- A cover GROUP(3) that the new list takes away, a coupler released, a RETRY entry rerouted; and refusals. -/
theorem test_amend_lists_and_routes :
    let f := amending { count := 0xFF, hop1 := 0, hop2 := 0 } 0xFF 0xFF
    let g := { f with groups := { count := 1, g0 := 4, g1 := 0, g2 := 0, g3 := 0 } }
    let waits := { plain 1 with desired := some 4, image := .pending (.group 3), mark := some 9 }
    leaves (.amend g) (withRecords [waits]) (fun t => t.normal == [delivery 1 3]
        && recordAt 1 (fun r => r.image == .pending .ownEntry && r.mark == none && r.coupler == .bridged
          && r.source == .window) t) = true
      ∧ leaves (.amend { g with cls := 1 }) (fullNormal (withRecords [waits]))
        (fun t => t.counters.stranded == 1 && recordAt 1 (fun r => r.image == .pending .refresh) t) = true
      ∧ leaves (.amend { f with primary := { count := 1, hop1 := unit 5, hop2 := 0 } })
        { withRecords [{ plain 1 with failures := 2 }] with normal := [{ delivery 1 3 with origin := .retry [8] }] }
        (fun t => t.normal == [{ delivery 1 3 with origin := .retry [5] }]) = true
      ∧ answers (.amend f) State.reset [0x09] (fun _ => true) = true
      ∧ answers (.amend { f with cls := 3 }) State.reset [0x0F] (fun _ => true) = true
      ∧ answers (.amend f) (withRecords [{ plain 1 with inFlight := true }]) [0x10] (fun _ => true) = true
      ∧ answers (.amend { f with priority := 8 }) (withRecords [plain 1]) [0x0F] (fun _ => true) = true
      ∧ answers (.amend f) { withRecords [plain 1] with defaultCoupler := none } [0x0D] (fun _ => true) = true := by
  decide +kernel

theorem test_retire :
    leaves (.retire (unit 1)) { one (.pending .ownEntry) with normal := [delivery 1 3, delivery 2 3] }
        (fun t => t.table == [] && t.normal == [delivery 2 3]) = true
      ∧ answers (.retire (unit 1)) (withRecords [{ plain 1 with inFlight := true }]) [0x10] (fun _ => true) = true := by
  decide +kernel

/-- A record that shows a condition leaves its count, and no line is tested or cleared. -/
theorem test_retire_falls :
    let s := { withRecords [{ plain 1 with restored := true }] with
      counts := State.reset.counts.set 2 1
      lines := State.reset.lines.set 0 { masked := false, edge := false, tag := 77, awaiting := true } }
    answers (.retire (unit 1)) s [0x00] (fun t => t.table == [] && t.counts == State.reset.counts && t.lines == s.lines
      && t.fifo == []) = true := by decide +kernel

/-- Five forms of the one statement: in flight, room, full, DEFERRED, an entry already. -/
theorem test_set_states :
    leaves (.set (unit 1) 6 3) (withRecords [{ plain 1 with inFlight := true }])
        (fun t => t.lastCode == some 0x03 && recordAt 1 (fun r => r.image == .pending .inFlight && r.revision == 8) t)
        = true
      ∧ leaves (.set (unit 1) 6 4) (one .confirmed) (fun t => t.lastCode == some 0x02 && t.normal == [delivery 1 4]) = true
      ∧ leaves (.set (unit 1) 6 5) (one .confirmed) (fun t => t.urgent == [delivery 1 5]) = true
      ∧ leaves (.set (unit 1) 6 3) (fullNormal (one .confirmed))
          (fun t => t.lastCode == some 0x04 && t.counters.queueFull == 1 && t.counters.stranded == 1) = true
      ∧ leaves (.set (unit 1) 6 3) (withRecords [{ plain 1 with cls := .deferred }])
          (fun t => t.lastCode == some 0x04 && recordAt 1 (fun r => r.image == .pending .refresh) t) = true
      ∧ leaves (.set (unit 1) 6 7) { one (.pending .ownEntry) with normal := [delivery 1 3] }
          (fun t => t.lastCode == some 0x02 && t.urgent == [delivery 1 7] && t.normal == []) = true := by
  decide +kernel

/-- What the replies of a SET say: the image state, the cover and the revision. -/
theorem test_set_replies :
    answers (.set (unit 1) 6 3) (withRecords [{ plain 1 with inFlight := true }]) [0x03, 0x02, 0x02, 0xFF, 0, 8]
        (fun t => t.counters == Counters.zero) = true
      ∧ answers (.set (unit 1) 6 3) (withRecords [{ plain 1 with override := some { saved := 2, endsAt := 9, priority := 3 } }])
        [0x05, 0x01, 0x00, 0xFF, 0, 7] (fun t => t.normal == []) = true
      ∧ answers (.set (unit 1) 6 3) (withRecords [{ plain 1 with cls := .pass, image := .none }])
        [0x02, 0x00, 0x00, 0xFF, 0, 7] (fun t => t.normal.length == 1) = true := by decide +kernel

/-- An entry of the normal queue moves for a higher urgent priority alone, a PASS_DELIVER entry with its new tariff. -/
theorem test_set_moves_entry :
    let waits := { one (.pending .ownEntry) with normal := [delivery 1 3] }
    let pass := { withRecords [{ plain 1 with cls := .pass, image := .none }] with
      normal := [{ delivery 1 3 with work := .passDeliver 1 4 }] }
    leaves (.set (unit 1) 6 4) waits (fun t => t.normal == [delivery 1 3] && t.urgent == []) = true
      ∧ leaves (.set (unit 1) 6 5) { waits with urgent := List.replicate 32 (delivery 900 6) }
        (fun t => t.normal == [delivery 1 3] && t.urgent.length == 32) = true
      ∧ leaves (.set (unit 1) 6 5) { one (.pending .ownEntry) with urgent := [delivery 1 6] }
        (fun t => t.urgent == [delivery 1 6]) = true
      ∧ leaves (.set (unit 1) 6 4) pass (fun t => t.normal == [{ delivery 1 3 with work := .passDeliver 1 6 }]) = true
      ∧ leaves (.set (unit 1) 6 5) pass
        (fun t => t.normal == [] && t.urgent == [{ delivery 1 5 with work := .passDeliver 1 6 }]) = true := by
  decide +kernel

theorem test_set_without_statement :
    answers (.set (unit 1) 4 3) (one .confirmed) [0x01, 0x03, 0x00, 0xFF, 0x00, 0x07] (fun _ => true) = true
      ∧ leaves (.set (unit 1) 9 3) overriding (fun t => t.lastCode == some 0x05
          && recordAt 1 (fun r => r.override.map (·.saved) == some 9 && r.desired == some 4) t) = true
      ∧ answers (.set (unit 1) 4 3) (withRecords [{ plain 1 with cls := .pass, inFlight := true }]) [0x10]
          (fun _ => true) = true
      ∧ leaves (.set (unit 1) 4 3) (withRecords [{ plain 1 with cls := .pass, image := .none }])
          (fun t => t.normal == [{ work := .passDeliver 1 4, priority := 3, origin := .request }]) = true
      ∧ answers (.set (unit 1) 4 3) (fullNormal (withRecords [{ plain 1 with cls := .pass, image := .none }])) [0x08]
          (fun t => t.counters.queueFull == 1) = true := by decide +kernel

theorem test_set_range :
    segmentOrDefault 0 0xFF = some 0
      ∧ answers (.setRange 0xFF 0 3 4 3)
          (withRecords [plain 1, { plain 2 with desired := some 4, image := .confirmed, pinned := true }])
          [0x00, 0x00, 0x01, 0x00, 0x00, 0x00, 0x02] (fun t => t.normal == [delivery 1 3]) = true := by decide +kernel

/-- Each kind of unit: under an override, unchanged, in flight, with an entry, DEFERRED, and two for one place. -/
theorem test_set_range_units :
    let wants := { plain 1 with desired := some 4, image := .confirmed }
    let s := withRecords
      [{ wants with slot := 2, addr := 2, override := some { saved := 2, endsAt := 9, priority := 3 } },
       { wants with slot := 3, addr := 3 }, { plain 4 with inFlight := true },
       { plain 5 with desired := some 1, image := .pending .ownEntry }, { plain 6 with cls := .deferred }, plain 7, plain 8]
    let filled := { s with normal := { delivery 5 3 with origin := .plan } :: List.replicate 126 (delivery 900 1) }
    unitsOf 0 2 256 = (List.range 256).map (fun i => BitVec.ofNat 3 0 ++ (2 + BitVec.ofNat 8 i))
      ∧ answers (.setRange 0 2 256 4 3) filled [0x00, 0, 6, 0, 1, 0, 249] (fun t =>
          t.table.map (·.image) == [.confirmed, .confirmed, .pending .inFlight, .pending .ownEntry, .pending .refresh,
            .pending .ownEntry, .pending .refresh]
          && t.normal.length == 128 && t.normal.getLast? == some (delivery 7 3)) = true := by
  refine ⟨rfl, ?_⟩
  decide +kernel

theorem test_set_group :
    leaves (.setGroup 3 4 6) State.reset (fun t => t.lastCode == some 0x07
        && t.groups[(3 : Group)].tariff == some 4) = true
      ∧ answers (.setGroup 3 4 6) (withRecords [{ plain 1 with intended := [4] }]) [0x07, 0, 0, 0, 0, 0, 0, 0]
        (fun t => t.table == [{ plain 1 with intended := [4] }] && t.urgent == []) = true
      ∧ (withRecords [plain 1]).addrs.Nodup ∧ (withRecords [plain 1]).members 3 ≠ []
      ∧ leaves (.setGroup 3 4 6) (withRecords [plain 1]) (fun t => t.lastCode == some 0x02
        && recordAt 1 (fun r => r.image == .pending (.group 3) && r.desired == some 4) t
        && t.urgent == [{ work := .group 3, priority := 6, origin := .request }]) = true
      ∧ leaves (.setGroup 3 9 6) overriding
          (recordAt 1 fun r => r.override.map (·.saved) == some 9 && r.desired == some 4) = true := by decide +kernel

/-- Six members, one for each row of R71 and one for each of two classes that are given the cover, and a record that is
none: the counts, with the entry inserted, moved, kept and not placed. -/
theorem test_set_group_rows :
    let wants := { plain 1 with desired := some 4, image := .shared }
    let s := withRecords
      [wants, { wants with slot := 2, addr := 2, override := some { saved := 2, endsAt := 9, priority := 3 } },
       { wants with slot := 3, addr := 3, image := .pending .inFlight, inFlight := true },
       { wants with slot := 4, addr := 4, image := .pending .ownEntry }, { plain 5 with cls := .deferred }, plain 6,
       { wants with slot := 7, addr := 7, pinned := true }]
    let frame := fun p : Nat => ({ work := .group 3, priority := p, origin := .request } : Entry)
    let images := fun c : Cover =>
      [Image.shared, .shared, .pending .inFlight, .pending c, .pending c, .pending c, .shared]
    let counted : List Byte := [0, 4, 0, 1, 0, 1]
    s.addrs.Nodup ∧ s.members 3 ≠ []
      ∧ answers (.setGroup 3 4 6) { s with normal := [delivery 4 3] } (0x02 :: (counted ++ [1])) (fun t =>
          t.table.map (·.image) == images (.group 3) && t.table.map (·.revision) == [7, 7, 8, 8, 8, 8, 7]
            && t.normal == [] && t.urgent == [frame 6]) = true
      ∧ answers (.setGroup 3 4 5) { s with normal := [frame 1, delivery 4 3] } (0x02 :: (counted ++ [1])) (fun t =>
          t.normal == [] && t.urgent == [frame 5]) = true
      ∧ answers (.setGroup 3 4 4) { s with normal := [frame 1, delivery 4 3] } (0x02 :: (counted ++ [1])) (fun t =>
          t.normal == [frame 1] && t.urgent == []) = true
      ∧ answers (.setGroup 3 4 4) (fullNormal s) (0x08 :: (counted ++ [0])) (fun t =>
          t.table.map (·.image) == images .refresh && t.counters.queueFull == 1 && t.counters.stranded == 2) = true := by
  decide +kernel

theorem test_group_set :
    answers (.groupSet 31 3) State.reset [0x00] (fun t => t.groups[(31 : Group)].repeats == 3) = true
      ∧ answers (.groupSet 32 3) State.reset [0x0F] (fun _ => true) = true
      ∧ answers (.groupSet 31 4) State.reset [0x0F] (fun _ => true) = true := by decide +kernel

theorem test_override :
    leaves (.override (unit 1) 9 1440 3) (one .confirmed) (fun t => recordAt 1 (fun r => r.desired == some 9
        && r.override == some { saved := 4, endsAt := 86400, priority := 3 } && r.isPending) t) = true
      ∧ leaves (.override (unit 1) 9 1 3) overriding (recordAt 1 fun r =>
          r.override == some { saved := 2, endsAt := 160, priority := 3 }) = true
      ∧ leaves (.override (unit 1) 4 1 3) (one .confirmed) (fun t => t.lastCode == some 0x01 && recordAt 1 (fun r =>
          r.override == some { saved := 4, endsAt := 60, priority := 3 } && r.image == .confirmed) t) = true
      ∧ answers (.override (unit 1) 9 1 3) (withRecords [plain 1]) [0x01, 0x01] (fun _ => true) = true
      ∧ answers (.override (unit 2) 9 1 3) (withRecords [plain 1]) [0x09] (fun _ => true) = true := by decide +kernel

/-- The cover an override takes: in flight, an own entry that moves to the urgent queue, a delivery, a full queue. -/
theorem test_override_covers :
    let s := one .confirmed
    let with' := fun r => ({ s with table := s.table.map r } : State)
    leaves (.override (unit 1) 9 1 6) (with' fun r => { r with inFlight := true })
        (fun t => recordAt 1 (fun r => r.image == .pending .inFlight) t && t.urgent == []
          && t.lastPayload == some [0x03, 0, 0, 0, 0, 0, 60, 4]) = true
      ∧ leaves (.override (unit 1) 9 1 6) { s with normal := [delivery 1 3] }
        (fun t => recordAt 1 (fun r => r.image == .pending .ownEntry) t && t.urgent == [delivery 1 6] && t.normal == []
          && t.lastCode == some 0x02) = true
      ∧ leaves (.override (unit 1) 9 1 3) s (fun t => t.normal == [delivery 1 3] && t.lastCode == some 0x02) = true
      ∧ leaves (.override (unit 1) 9 1 3) (fullNormal s) (fun t => recordAt 1 (fun r => r.image == .pending .refresh) t
        && t.counters.queueFull == 1 && t.counters.stranded == 1 && t.lastCode == some 0x04) = true
      ∧ leaves (.override (unit 1) 9 1 3) overriding (fun t => t.lastPayload.map (·.drop 1) == some [0, 1, 0, 0, 0, 160, 2])
        = true := by decide +kernel

theorem test_override_group :
    targetGroup 3 = some 3
      ∧ leaves (.overrideGroup 3 9 1 3) (one .confirmed) (recordAt 1 fun r => r.desired == some 9
          && r.override == some { saved := 4, endsAt := 60, priority := 3 }) = true
      ∧ leaves (.overrideGroup 3 9 1 3) (withRecords [plain 1]) (recordAt 1 fun r => r == plain 1) = true
      ∧ answers (.overrideGroup 3 9 1 3) State.reset [0x07, 0, 0, 0, 0, 0, 0, 0, 0, 0, 0]
        (fun t => t.groups[(3 : Group)].tariff == some 9 && t.normal == []) = true := by decide +kernel

/-- A member believed at the tariff, one under an override, one in flight, one without a tariff. -/
theorem test_override_group_rows :
    let wants := { plain 1 with desired := some 9, image := .shared }
    let s := withRecords
      [wants, { wants with slot := 2, addr := 2, desired := some 4, override := some { saved := 2, endsAt := 9, priority := 3 } },
       { wants with slot := 3, addr := 3, image := .pending .inFlight, inFlight := true }, plain 4]
    answers (.overrideGroup 3 9 1 3) s [0x02, 0, 2, 0, 1, 0, 1, 0, 2, 0, 1] (fun t =>
      t.table.map (·.image) == [.shared, .pending (.group 3), .pending .inFlight, .unknown]
        && t.table.map (fun r => r.override.map (·.saved)) == [some 9, some 2, some 9, none]
        && t.normal == [{ work := .group 3, priority := 3, origin := .request }]) = true := by decide +kernel

theorem test_end_override :
    answers (.endOverride (unit 1)) (one .confirmed) [0x01] (fun _ => true) = true
      ∧ leaves (.endOverride (unit 1)) overriding (recordAt 1 fun r => r.override == none && r.desired == some 2) = true
      ∧ answers (.endOverrideGroup 4) overriding [0x07] (fun _ => true) = true
      ∧ answers (.endOverrideGroup 3) overriding [0x00, 0, 2, 2, 0, 0]
          (fun t => t.table.all fun r => r.override == none && r.desired == some 2) = true := by decide +kernel

/-- The rows of R155: in flight; with an entry, moved and kept; placed, and not; the saved tariff desired already. -/
theorem test_end_override_rows :
    let held := fun (i : Image) (p : Nat) =>
      { plain 1 with desired := some 4, image := i, override := some { saved := 2, endsAt := 9, priority := p } }
    let poll : Entry := { work := .poll 1, priority := 3, origin := .request }
    let ended := Entry.mk (.deliver 1) 5 .overrideEnd
    answers (.endOverride (unit 1)) (withRecords [{ held .confirmed 5 with inFlight := true }]) [0x03] (fun t =>
        t.urgent == [] && recordAt 1 (fun r => r.image == .pending .inFlight) t) = true
      ∧ answers (.endOverride (unit 1)) { withRecords [held .confirmed 5] with normal := [poll] } [0x02] (fun t =>
        t.normal == [] && t.urgent == [{ poll with priority := 5, origin := .overrideEnd }]) = true
      ∧ answers (.endOverride (unit 1)) { withRecords [held .confirmed 4] with normal := [poll] } [0x02] (fun t =>
        t.normal == [poll] && recordAt 1 (fun r => r.image == .pending .ownEntry) t) = true
      ∧ answers (.endOverride (unit 1)) (withRecords [held .shared 5]) [0x02] (fun t => t.urgent == [ended]) = true
      ∧ answers (.endOverride (unit 1)) (fullNormal (withRecords [held .shared 1])) [0x04] (fun t =>
        t.counters.stranded == 1 && recordAt 1 (fun r => r.image == .pending .refresh && r.revision == 8) t) = true
      ∧ answers (.endOverride (unit 1)) (withRecords [{ held .shared 5 with desired := some 2 }]) [0x01] (fun t =>
        t.urgent == [] && recordAt 1 (fun r => r.image == .shared && r.revision == 7 && r.override == none) t) = true := by
  decide +kernel

theorem test_poll :
    answers (.poll (unit 1) 3) (withRecords [{ plain 1 with cls := .pass }]) [0x0F] (fun _ => true) = true
      ∧ answers (.poll (unit 1) 3) (withRecords [{ plain 1 with inFlight := true }]) [0x10] (fun _ => true) = true
      ∧ answers (.poll (unit 1) 3) { one .confirmed with normal := [delivery 1 3] } [0x11] (fun _ => true) = true
      ∧ answers (.poll (unit 1) 3) (fullNormal (one .confirmed)) [0x08] (fun t => t.counters.queueFull == 1) = true
      ∧ answers (.poll (unit 1) 3) (one (.pending .refresh)) [0x02]
          (recordAt 1 fun r => r.image == .pending .ownEntry) = true
      ∧ answers (.poll (unit 1) 7) (one .confirmed) [0x02] (fun t => t.urgent.length == 1
          && recordAt 1 (fun r => r.image == .confirmed) t) = true := by decide +kernel

theorem test_push :
    answers (.push (unit 1) 3) (one .confirmed) [0x12] (fun _ => true) = true
      ∧ answers (.push (unit 1) 3) (withRecords [{ plain 1 with image := .pending .refresh, reach := .lost }]) [0x04]
          (fun _ => true) = true
      ∧ answers (.push (unit 1) 3) (fullNormal (one (.pending .refresh))) [0x08] (fun t => t.counters.queueFull == 1) = true
      ∧ answers (.push (unit 1) 3) (one (.pending .refresh)) [0x02] (fun t => t.normal == [delivery 1 3]) = true := by
  decide +kernel

theorem test_push_all :
    let waits := { plain 1 with desired := some 4, image := .pending .refresh }
    let s := withRecords [waits, { waits with slot := 2, addr := 2, reach := .lost },
      { waits with slot := 3, addr := 3, image := .confirmed }]
    s.addrs.Nodup ∧ answers (.pushAll 3) s [0x00, 1, 0, 0, 0, 1] (fun t => t.normal == [delivery 1 3]) = true := by
  decide +kernel

/-- One place in the queue for two records that wait. -/
theorem test_push_all_full :
    let waits := { plain 1 with desired := some 4, image := .pending .refresh }
    answers (.pushAll 3)
      { withRecords [waits, { waits with slot := 2, addr := 2 }] with normal := List.replicate 127 (delivery 900 1) }
      [0x00, 1, 0, 1, 0, 0] (fun t => t.normal.length == 128 && t.counters.queueFull == 1
        && t.table.map (·.image) == [.pending .ownEntry, .pending .refresh]) = true := by decide +kernel

theorem test_forget :
    answers (.forget (unit 1)) { listening with link := State.reset.link } [0x00, 1]
        (fun t => t.contexts.map (·.orphaned) == [true] && recordAt 1 (fun r => r.image == .unknown && r.inFlight) t)
        = true
      ∧ answers (.forget (unit 1)) (withRecords [{ plain 1 with cls := .pass, image := .none, confirmed := some [3] }])
          [0x00, 0] (recordAt 1 fun r => r.confirmed == none && r.image == .none) = true
      ∧ answers .forgetAll { withRecords [{ plain 1 with image := .shared }, { plain 2 with pinned := true }] with
            urgent := [{ work := .group 3, priority := 6, origin := .request }] } [0x00, 0, 1, 0, 1]
          (fun t => t.urgent == [] && recordAt 1 (fun r => r.image == .unknown) t && t.lookup 2 ==
            some { plain 2 with pinned := true }) = true := by decide +kernel

/-- FORGET_ALL beside flights of a record forgotten and of a pinned one, with entries of each and of a group. -/
theorem test_forget_all :
    let two := flight (.set 2 7 4 []) .normal 2
    let s := { withRecords [flying (.pending .inFlight), { flying (.pending .inFlight) with slot := 2, addr := 2, pinned := true },
        { plain 3 with desired := some 4, image := .pending .ownEntry }, { plain 4 with cls := .pass, image := .none }] with
      contexts := [flight (.set 1 7 4 [3]) .normal 2, two]
      normal := [delivery 3 2, { work := .passDeliver 4 1, priority := 2, origin := .request }]
      urgent := [frameEntry 3] }
    s.addrs.Nodup
      ∧ answers .forgetAll s [0x00, 0, 2, 1, 2] (fun t => t.contexts.map (·.orphaned) == [true, false]
        && t.contexts.getLast? == some two && t.urgent == [] && t.normal.map (·.work) == [.passDeliver 4 1]
        && t.table.map (·.image) == [.unknown, .pending .inFlight, .unknown, .none]) = true
      ∧ answers .forgetAll { s with contexts := s.contexts.map fun c => { c with orphaned := true } } [0x00, 0, 2, 0, 2]
        (fun _ => true) = true := by decide +kernel

/-- PLAN_ADD of a SET of unit 1. -/
def adding (second : BitVec 24) : PlanFields :=
  { dueDay := 2, dueSecond := second, daily := 1, form := 0, t0 := 0x80, t1 := 0x01, t2 := 0, t3 := 0, action := 0
    tariff := 4, minutes := 0xFFFF, priority := 3 }

theorem test_plan :
    planTargetOf 0 (adding 86399) = some (.endpoint 1) ∧ planActionOf (adding 86399) = some (.set 4)
      ∧ answers (.planAdd (adding 86399)) State.reset [0x00, 0, 0, 1, 0, 2, 0x01, 0x51, 0x7F]
          (fun t => t.plan.map (·.id) == [0]) = true
      ∧ answers (.planAdd (adding 86400)) State.reset [0x0F] (fun _ => true) = true
      ∧ answers (.planAdd (adding 0)) { State.reset with plan := (List.range 64).map fun n =>
            { id := n, due := { day := 0, second := 0 }, daily := false, target := .group 0, action := .endOverride
              priority := 1 } } [0x13] (fun _ => true) = true
      ∧ answers (.planRemove 0) (planned true 2) [0x00] (fun t => t.plan == []) = true
      ∧ answers (.planRemove 63) (planned true 2) [0x14] (fun _ => true) = true
      ∧ answers (.planRemove 64) (planned true 2) [0x0F] (fun _ => true) = true := by decide +kernel

/-- With a RUNNING clock: the entry waits; it fires and is carried to the next day; a ONCE entry fires and is gone. -/
theorem test_plan_add_running :
    let p := { planned false 2 with timebase := { uptime := 100, clock := some { day := 2, second := 60 }, checkDue := false }
                                    plan := [entryAt 0 50 false 4] }
    p.planWf ∧ p.plan.all (fun e => e.id != freePlanId p.plan) = true
      ∧ answers (.planAdd (adding 61)) p [0x00, 1, 1, 1, 0, 2, 0, 0, 61] (fun t => t.plan.map (·.id) == [1]) = true
      ∧ answers (.planAdd (adding 60)) p [0x00, 1, 2, 1, 0, 3, 0, 0, 60] (fun t => t.plan.map (·.id) == [1]
          && recordAt 1 (fun r => r.desired == some 4 && r.revision == 9) t) = true
      ∧ leaves (.planAdd { adding 60 with daily := 0 }) p (fun t => t.plan == []
          && t.lastPayload.map (·.take 4) == some [0x00, 1, 2, 0] && t.lastPayload.map (·.length) == some 9) = true := by
  refine ⟨by unfold State.planWf; decide +kernel, ?_⟩
  decide +kernel

/-- The plan is full and the fields are bad: the fields are judged first. -/
theorem test_plan_refusals :
    let f := adding 0
    let refused := fun f => answers (.planAdd f) State.reset [0x0F] (fun t => t.plan == [])
    refused { f with form := 3 } = true ∧ refused { f with t2 := 1 } = true ∧ refused { f with form := 1, t0 := 32 } = true
      ∧ refused { f with form := 2, t0 := 8, t3 := 1 } = true ∧ refused { f with form := 2, t0 := 7, t1 := 0 } = true
      ∧ refused { f with form := 2, t0 := 7, t2 := 1, t3 := 1 } = true ∧ refused { f with action := 3 } = true
      ∧ refused { f with minutes := 1 } = true ∧ refused { f with action := 1, minutes := 1441 } = true
      ∧ refused { f with action := 2 } = true ∧ refused { f with daily := 2 } = true
      ∧ refused { f with priority := 0 } = true := by decide +kernel

theorem test_time_set :
    answers (.timeSet 0 86400) State.reset [0x0F] (fun _ => true) = true
      ∧ answers (.timeSet 0 86399) State.reset [0x00, 0, 0, 0, 0xFF, 0xFF, 0xFF, 0]
          (fun t => t.timebase.clock == some { day := 0, second := 86399 }) = true
      ∧ answers (.timeSet 9 5) (clocked 9 5 State.reset) [0x00, 1, 0, 9, 0, 0, 5, 0] (fun _ => true) = true
      ∧ answers (.timeSet 9 4) (clocked 9 5 State.reset) [0x00, 2, 0, 9, 0, 0, 5, 0] (fun _ => true) = true := by
  decide +kernel

/-- A setting that reaches one of two entries: the first one of an UNSET clock, and a forward one. -/
theorem test_time_set_fires :
    let p := { withRecords [plain 1] with plan := [entryAt 0 50 true 4, entryAt 1 61 false 6] }
    let left := fun t : State => t.plan.map (·.id) == [1, 0] && recordAt 1 (fun r => r.desired == some 4) t
    p.planWf
      ∧ answers (.timeSet 2 60) p [0x00, 0, 0, 0, 0xFF, 0xFF, 0xFF, 1] left = true
      ∧ answers (.timeSet 2 60) { p with timebase := (clocked 2 5 p).timebase } [0x00, 1, 0, 2, 0, 0, 5, 1] left = true := by
  refine ⟨by unfold State.planWf; decide +kernel, ?_⟩
  decide +kernel

theorem test_refresh_now :
    answers (.refreshNow 0) State.reset [0x0F] (fun _ => true) = true
      ∧ answers (.refreshNow 1024) State.reset [0x0F] (fun _ => true) = true
      ∧ answers (.refreshNow 1023) { State.reset with refresh := { State.reset.refresh with missed := 5, backlog := 1 } }
          [0x00, 0x03, 0xFF, 0, 0] (fun t => t.refresh.backlogLevel) = true
      ∧ answers (.refreshNow 1) { State.reset with refresh := { State.reset.refresh with missed := 5 } }
          [0x00, 0, 1, 0, 4] (fun t => t.refresh.pointer == 0) = true := by decide +kernel

/-- Source RESTORED of notice group 2 is true; its line 0 is unmasked or not, awaiting or not. -/
def noticing (masked awaiting : Bool) : State :=
  { State.reset with
    counts := State.reset.counts.set 2 1
    lines := State.reset.lines.set 0 { masked := masked, edge := false, tag := 77, awaiting := awaiting } }

theorem test_notice_settings :
    leaves (.noticeMapSet 0 2 19) (noticing false true)
        (fun t => t.sourceMap[(2 : SourceId)] == some 19 && t.lastCode == some 0x00) = true
      ∧ answers (.noticeMapSet 8 0 0) State.reset [0x0F] (fun _ => true) = true
      ∧ leaves (.noticeLineSet 0 0 0 9) (noticing true false)
          (fun t => t.fifo == [{ line := 0, tag := 9 }] && t.lines[(0 : Line)].awaiting) = true
      ∧ leaves (.noticeLineSet 0 0 1 255) (noticing false true)
          (fun t => !t.lines[(0 : Line)].awaiting && t.lines[(0 : Line)].edge) = true
      ∧ answers (.noticeLineSet 20 0 0 9) State.reset [0x0F] (fun _ => true) = true := by decide +kernel

/-- ALL, a feeder source, UNMAPPED, settings left out, and each field out of range. -/
theorem test_notice_forms :
    leaves (.noticeMapSet 5 0xFF 19) State.reset
        (fun t => (List.finRange 50).all fun i => t.sourceMap[i] == if i.val / 8 == 5 then some 19 else State.reset.sourceMap[i])
        = true
      ∧ leaves (.noticeMapSet 6 99 0xFF) State.reset (fun t => t.sourceMap[(48 : SourceId)] == none) = true
      ∧ leaves (.noticeMapSet 7 99 0) State.reset (fun t => t.sourceMap[(49 : SourceId)] == some 0) = true
      ∧ leaves (.noticeLineSet 0 0xFF 0xFF 0xFFFF) (noticing false false)
        (fun t => t.lines[(0 : Line)] == { masked := false, edge := false, tag := 77, awaiting := true }) = true
      ∧ answers (.noticeMapSet 5 8 0) State.reset [0x0F] (fun _ => true) = true
      ∧ answers (.noticeMapSet 5 0 20) State.reset [0x0F] (fun _ => true) = true
      ∧ answers (.noticeLineSet 0 2 0 9) State.reset [0x0F] (fun _ => true) = true
      ∧ answers (.noticeLineSet 0 0 2 9) State.reset [0x0F] (fun _ => true) = true
      ∧ answers (.noticeLineSet 0 0 0 256) State.reset [0x0F] (fun _ => true) = true := by decide +kernel

theorem test_notice_done :
    answers (.noticeDone 256) State.reset [0x0F] (fun _ => true) = true
      ∧ answers (.noticeDone 78) (noticing false true) [0x00, 0, 0] (fun _ => true) = true
      ∧ answers (.noticeDone 77) (noticing true true) [0x00, 1, 0] (fun t => !t.lines[(0 : Line)].awaiting) = true
      ∧ answers (.noticeDone 77) (noticing false true) [0x00, 1, 1] (fun t => t.fifo == [{ line := 0, tag := 77 }]) = true
      ∧ answers (.noticeDone 77) { noticing false true with fifo := [{ line := 0, tag := 77 }] } [0x00, 1, 0]
          (fun t => t.lines[(0 : Line)].awaiting && t.fifo.length == 1) = true := by decide +kernel

/-- Two awaiting lines share the tag, in a third it waits on another: one is noticed again, one no longer stands. -/
theorem test_notice_done_lines :
    let at' := fun (masked : Bool) (tag : Byte) =>
      ({ masked := masked, edge := false, tag := tag, awaiting := true } : NoticeLine)
    let s := { noticing false true with
      mains := { State.reset.mains with returnFlag := true }
      lines := (((noticing false true).lines.set 18 (at' false 77)).set 1 (at' false 77)).set 3 (at' false 78) }
    answers (.noticeDone 77) s [0x00, 3, 2] (fun t => t.fifo == [{ line := 0, tag := 77 }, { line := 18, tag := 77 }]
      && t.lines == s.lines.set 1 { masked := false, edge := false, tag := 77, awaiting := false }) = true := by
  decide +kernel

/-! ## Rises of lines (R162 to R168) -/

/-- One line of a state set, with tag 77. -/
def watching (l : Line) (masked edge : Bool) (s : State) : State :=
  { s with lines := s.lines.set l { masked := masked, edge := edge, tag := 77, awaiting := false } }

/-- MAINS_DOWN rises: a LEVEL line awaits, an EDGE line does not; a notice that waits merges; a masked rise is lost. -/
theorem test_rises :
    let falling := up false State.reset
    let s := fun (masked edge : Bool) =>
      watching 18 masked edge { falling with mains := { falling.mains with missing := 1 } }
    let waiting := fun (x : State) => { x with fifo := [{ line := 18, tag := 5 }] }
    let left := fun (fifo : List Notice) (merged : Nat) (awaiting : Bool) (t : State) =>
      t.lineLevel 18 && t.fifo == fifo && t.counters.merged == merged && t.lines[(18 : Line)].awaiting == awaiting
    (s false false).mains.boundaryDue = false
      ∧ leaves .mainsLoss (s false false) (left [{ line := 18, tag := 77 }] 0 true) = true
      ∧ leaves .mainsLoss (waiting (s false false)) (left [{ line := 18, tag := 5 }] 0 true) = true
      ∧ leaves .mainsLoss (s true false) (left [] 0 false) = true
      ∧ leaves .mainsLoss (s false true) (left [{ line := 18, tag := 77 }] 0 false) = true
      ∧ leaves .mainsLoss (waiting (s false true)) (left [{ line := 18, tag := 5 }] 1 false) = true
      ∧ leaves .mainsLoss (s true true) (left [] 0 false) = true := by decide +kernel

/-- REFRESH_BACKLOG rises by a command, by CONFIGURE and by the sweep of a lock; a record becomes LOST, and one moves to
another notice group. -/
theorem test_rises_of_commands :
    let noticed := fun (l : Line) (t : State) => t.fifo == [{ line := l, tag := 77 }]
    let returning := { running 15 with
      mains := { (running 15).mains with returnFlag := true, runSum := 14 * 8330 }
      table := [plain 1, plain 2]
      refresh := { State.reset.refresh with limit := 2 } }
    let moved := { amending { count := 0xFF, hop1 := 0, hop2 := 0 } 0xFE 0xFF with noticeGroup := 5 }
    let shown := { withRecords [{ plain 1 with restored := true }] with
      counts := State.reset.counts.set 2 1, sourceMap := State.reset.sourceMap.set 5 (some 7) }
    leaves (.refreshNow 64) (watching 19 false false State.reset) (noticed 19) = true
      ∧ leaves (.configure [(11, 1)])
        (watching 19 false true { State.reset with refresh := { State.reset.refresh with backlog := 1 } }) (noticed 19) = true
      ∧ returning.mains.boundaryDue = false
      ∧ leaves (.zeroCrossing 107500) (watching 19 false false returning) (noticed 19) = true
      ∧ leaves .transactionEnd (watching 4 false true (failing 2 none)) (noticed 4) = true
      ∧ leaves (.amend moved) (watching 7 false true shown) (noticed 7) = true
      ∧ leaves (.forget (unit 1)) (watching 0 false false (one .confirmed)) (fun t => t.fifo == []) = true := by
  decide +kernel

theorem test_rises_met : (watching 4 false true (failing 2 none)).backlogWf := by
  unfold State.backlogWf
  decide +kernel

/-- A map change lowers one line and raises another, which is tested or taken by its mode; an unmask is a test. -/
theorem test_map_change_rises :
    let s := fun (masked edge : Bool) => watching 19 masked edge (noticing true false)
    let waiting := fun (x : State) => { x with fifo := [{ line := 19, tag := 5 }] }
    let moved := fun (x : State) (p : State → Bool) => answers (.noticeMapSet 0 2 19) x [0x00, 2, 0, 1] p
    moved (s false false) (fun t => t.fifo == [{ line := 19, tag := 77 }] && t.lines[(19 : Line)].awaiting) = true
      ∧ moved (s false true) (fun t => t.fifo == [{ line := 19, tag := 77 }] && !t.lines[(19 : Line)].awaiting) = true
      ∧ moved (waiting (s false true)) (fun t => t.fifo.length == 1 && t.counters.merged == 1) = true
      ∧ moved (s true true) (fun t => t.fifo == [] && t.counters.merged == 0) = true
      ∧ answers (.noticeLineSet 0 0 0xFF 0xFFFF) (noticing true false) [0x00, 0, 0, 77, 1, 1]
        (fun t => t.fifo == [{ line := 0, tag := 77 }]) = true := by decide +kernel

theorem test_restart :
    answers .restart { closing .quiet with link := State.reset.link, normal := [delivery 2 3], fifo := [{ line := 0, tag := 1 }] }
      [0x00] (fun t => t.contexts == [] && t.normal == [] && t.fifo == []
        && recordAt 1 (fun r => r.image == .unknown && !r.inFlight && r.confirmed == none) t) = true := by
  decide +kernel

/-- A group frame in flight is applied as ended; held couplers are free after the slot; a line is noticed afresh. -/
theorem test_restart_applies_frame :
    let stored := { plain 1 with confirmed := some [3], desired := some 4, image := .pending (.group 3), mark := some 9 }
    let s := { noticing false true with
      mains := (up false State.reset).mains
      table := [stored, { stored with slot := 2, addr := 2, desired := some 1, mark := none },
        { stored with slot := 3, addr := 3, confirmed := none, image := .pending (.group 4), mark := none },
        { stored with slot := 4, addr := 4, confirmed := none, image := .shared, desired := some 1, mark := none },
        { plain 5 with cls := .pass, image := .none }]
      contexts := [flight (.group 3 4 0) .urgent 1] }
    s.addrs.Nodup
      ∧ leaves .restart s (fun t => t.table.map (·.image) ==
          [.shared, .pending .refresh, .pending .refresh, .unknown, .none] && t.table.all (fun r => r.mark == none)
        && t.arbiter.freeA == some 7 && t.arbiter.freeB == none && t.fifo == [{ line := 0, tag := 77 }]) = true
      ∧ leaves .restart (ending .quiet (flight (.passSet 1 6 []) .urgent 1)
          { plain 1 with cls := .pass, image := .none, inFlight := true, confirmed := some [] })
        (fun t => t.arbiter.freeA == some 6 && recordAt 1 (fun r => r.image == .none && r.confirmed == none && !r.inFlight) t)
        = true := by decide +kernel

/-- A target in flight beside a group frame that it stores: UNKNOWN, its held tariff kept (log entry 13). -/
theorem test_restart_both_in_flight :
    let r := { flying (.pending .inFlight) with confirmed := some [3], held := some 1 }
    let s := { up false (withRecords [r]) with
      contexts := [{ flight (.group 3 4 1) .urgent 2 with coupler := .single .b, seq := 10 },
        flight (.poll 1 7) .normal 1] }
    leaves .restart s (fun t => t.lookup 1 == some { r with inFlight := false, image := .unknown }
      && t.contexts == []) = true := by decide +kernel

/-! ## The invariants hold of states in use -/

theorem test_queues_met : launching.queuesWf := by
  unfold State.queuesWf
  decide +kernel

theorem test_flight_met : framed.flightWf := by
  unfold State.flightWf
  decide +kernel

theorem test_grid_met : (up true State.reset).gridWf := by
  refine ⟨fun n h => ?_, fun n h => ?_, by decide, by decide, by decide, fun g h => ?_⟩
  · rcases h with rfl | h
    · decide
    · cases h
  · rcases h with rfl | h
    · decide
    · cases h
  · cases h
    decide

theorem test_refresh_met : launching.refreshWf ∧ launching.backlogWf := by
  unfold State.refreshWf State.backlogWf
  decide +kernel

theorem test_notices_met : (noticing false true).noticeWf ∧ (noticing false true).noCauseMissed := by
  unfold State.noticeWf State.noCauseMissed
  decide +kernel

theorem test_counters_met : launching.counters.wf := by
  unfold Counters.wf
  decide +kernel

theorem test_table_met : (failing 1 none).tableWf ∧ (failing 1 none).countsWf := by
  refine ⟨by unfold State.tableWf; decide +kernel, fun k => ?_⟩
  cases k <;> decide +kernel

theorem test_plan_met : (planned true 2).planWf := by
  unfold State.planWf
  decide +kernel

/-- A record in flight, one with its own entry, one that a frame in flight serves and one that waits for refresh. -/
theorem test_records_met :
    let wants := { plain 1 with desired := some 4 }
    let s := { up false (withRecords
        [{ wants with image := .pending .inFlight, inFlight := true, coupler := .single .b },
         { wants with slot := 2, addr := 2, image := .pending .ownEntry },
         { wants with slot := 3, addr := 3, image := .pending (.group 3), mark := some 10 },
         { wants with slot := 4, addr := 4, image := .pending .refresh }]) with
      normal := [delivery 2 3]
      contexts := [{ flight (.set 1 7 4 [3]) .normal 2 with coupler := .single .b },
        { flight (.group 3 4 1) .urgent 2 with seq := 10 }] }
    s.recordsWf := by
  intro wants s
  refine ⟨by decide +kernel, fun r h => ?_, fun e h => ?_, by decide +kernel, fun x h => ?_, by decide +kernel⟩
  · simp only [s, withRecords, up, List.mem_cons, List.not_mem_nil, or_false] at h
    rcases h with rfl | rfl | rfl | rfl
    · refine ⟨⟨?_, ?_, ?_, ?_, ?_⟩, ⟨?_, fun g e => ?_, ?_⟩, fun q e => ?_, ?_⟩
      all_goals first | decide +kernel | cases e
    · refine ⟨⟨?_, ?_, ?_, ?_, ?_⟩, ⟨?_, fun g e => ?_, ?_⟩, fun q e => ?_, ?_⟩
      all_goals first | decide +kernel | cases e
    · refine ⟨⟨?_, ?_, ?_, ?_, ?_⟩, ⟨?_, fun g e => ?_, ?_⟩, fun q e => ?_, ?_⟩
      all_goals first | decide +kernel | cases e
      · exact ⟨by decide +kernel, by decide +kernel, .inr ⟨_, .tail _ (.head _), _, _, rfl, .inl rfl⟩⟩
      · exact ⟨rfl, by decide, by decide, _, .tail _ (.head _), rfl, rfl⟩
    · refine ⟨⟨?_, ?_, ?_, ?_, ?_⟩, ⟨?_, fun g e => ?_, ?_⟩, fun q e => ?_, ?_⟩
      all_goals first | decide +kernel | cases e
  · simp only [s, withRecords, up, State.reset, List.nil_append, List.mem_singleton] at h
    subst h
    intro a e
    cases e
    refine ⟨_, rfl, rfl, ⟨fun k => ?_, fun k => ?_⟩, fun _ => ⟨rfl, rfl⟩⟩
    · cases k
    · obtain ⟨_, k⟩ := k
      cases k
  · simp only [s, List.mem_cons, List.not_mem_nil, or_false] at h
    rcases h with rfl | rfl
    · intro a e
      cases e
      refine ⟨_, rfl, rfl, .inr rfl, ⟨fun k => ?_, fun k => ?_⟩, fun _ => rfl, fun _ _ _ => rfl⟩
      · cases k
      · obtain ⟨_, _, k⟩ := k
        cases k
    · intro a e
      cases e

end Sys2Proof.Machine
end

section
/-! PROOF. The Mains Timing Unit and the line parameters: which operations leave them as they are, up to every request
but CONFIGURE and RESTART and up to every end of a transaction and every launch. -/

namespace Sys2Proof.Machine

/-! ## The frame -/

/-- The Mains Timing Unit, the slot's length, the guard, LINE_MASK and the attempts stand as they did. -/
structure TimingFrame (s t : State) : Prop where
  mains : t.mains = s.mains
  slotHc : t.arbiter.slotHc = s.arbiter.slotHc
  guard : t.arbiter.guard = s.arbiter.guard
  lineMask : t.arbiter.lineMask = s.arbiter.lineMask
  attempts : t.attempts = s.attempts

theorem TimingFrame.refl (s : State) : TimingFrame s s := by constructor <;> rfl

theorem TimingFrame.trans {s t u : State} (h : TimingFrame s t) (k : TimingFrame t u) : TimingFrame s u where
  mains := k.mains.trans h.mains
  slotHc := k.slotHc.trans h.slotHc
  guard := k.guard.trans h.guard
  lineMask := k.lineMask.trans h.lineMask
  attempts := k.attempts.trans h.attempts

/-- Where the whole arbiter stands as it did, so do its parameters. -/
theorem TimingFrame.of_arbiter {s t : State} (mains : t.mains = s.mains) (arbiter : t.arbiter = s.arbiter)
    (attempts : t.attempts = s.attempts) : TimingFrame s t where
  mains := mains
  slotHc := by rw [arbiter]
  guard := by rw [arbiter]
  lineMask := by rw [arbiter]
  attempts := attempts

theorem RecordFrame.timing {s t : State} (h : RecordFrame s t) : TimingFrame s t :=
  .of_arbiter h.mains h.arbiter h.attempts

theorem DeliveryFrame.timing {s t : State} (h : DeliveryFrame s t) : TimingFrame s t := h.record.timing

theorem noticeChange_timing (b s : State) : TimingFrame s (noticeChange b s) :=
  .of_arbiter (by simp) (by simp) (by simp)

theorem setGroupTariff_timing (s : State) (g : Group) (t : Tariff) : TimingFrame s (s.setGroupTariff g t) :=
  .of_arbiter rfl rfl rfl

theorem setGroupTo_timing (g : Group) (t : Tariff) (p : Nat) (o : Origin) (s : State) :
    TimingFrame s (setGroupTo g t p o s).walk.state :=
  (setGroupTariff_timing s g t).trans (setGroupTo_frame g t p o s).timing

theorem overrideGroupTo_timing (g : Group) (t : Tariff) (m p : Nat) (o : Origin) (s : State) :
    TimingFrame s (overrideGroupTo g t m p o s).done.walk.state :=
  (setGroupTariff_timing s g t).trans (overrideGroupTo_frame g t m p o s).timing

theorem setOwed_timing (s : State) (b m : Nat) : TimingFrame s (s.setOwed b m) :=
  .of_arbiter (by simp) (by simp) (by simp)

theorem evaluateBacklog_timing (s : State) : TimingFrame s s.evaluateBacklog :=
  .of_arbiter (by simp) (by simp) (by simp)

theorem testLine_timing (s : State) (l : Line) : TimingFrame s (s.testLine l) :=
  .of_arbiter (by simp) (by simp) (by simp)

/-! ## The plan and the second event -/

theorem overrideUnit_timing (t : Tariff) (m p : Nat) (w : RangeWalk) (a : Addr) :
    TimingFrame w.state (overrideUnit t m p w a).state := by
  unfold overrideUnit
  split
  · exact .refl _
  · exact (overrideOne_frame a t m p .plan w.state).timing

theorem endOverrideUnit_timing (w : RangeWalk) (a : Addr) : TimingFrame w.state (endOverrideUnit w a).state := by
  unfold endOverrideUnit
  split
  · exact .refl _
  · exact (endOverrideOf_frame a w.state).timing

/-- A walk over a range's units leaves what each of its units leaves. -/
theorem rangeWalk_timing {f : RangeWalk → Addr → RangeWalk} (h : ∀ w a, TimingFrame w.state (f w a).state)
    (l : List Addr) (w : RangeWalk) : TimingFrame w.state (l.foldl f w).state :=
  foldl_relates (fun x y : RangeWalk => TimingFrame x.state y.state) (fun _ => .refl _)
    (fun h k => TimingFrame.trans h k) f h l w

theorem endOverridesOf_timing {g : Group} {s : State} {w : EndWalk} (h : endOverridesOf g s = some w) :
    TimingFrame s w.state := by
  unfold endOverridesOf at h
  split at h
  · cases h
  · cases h
    exact foldl_relates (fun x y : EndWalk => TimingFrame x.state y.state) (fun _ => .refl _)
      (fun h k => TimingFrame.trans h k) endMember (fun w r => (endMember_frame w r).timing) _
      { state := s, ended := 0, queued := 0, held := 0 }

theorem fireSet_timing (t : Tariff) (p : Nat) (x : PlanTarget) (s : State) : TimingFrame s (fireSet t p x s).state := by
  cases x with
  | endpoint a => exact (setOne_frame a t p .plan s).timing
  | group g => exact setGroupTo_timing g t p .plan s
  | range g u n => exact (setRangeWalk_frame g u n t p .plan s).timing

theorem fireOverride_timing (t : Tariff) (m p : Nat) (x : PlanTarget) (s : State) :
    TimingFrame s (fireOverride t m p x s).state := by
  cases x with
  | endpoint a => exact (overrideOne_frame a t m p .plan s).timing
  | group g => exact overrideGroupTo_timing g t m p .plan s
  | range g u n => exact rangeWalk_timing (overrideUnit_timing t m p) _ { state := s, skipped := 0 }

theorem fireEndOverride_timing (x : PlanTarget) (s : State) : TimingFrame s (fireEndOverride x s).state := by
  cases x with
  | endpoint a => exact (endOverrideOf_frame a s).timing
  | group g =>
    unfold fireEndOverride
    dsimp only
    split
    · exact .refl s
    · next h => exact endOverridesOf_timing h
  | range g u n => exact rangeWalk_timing endOverrideUnit_timing _ { state := s, skipped := 0 }

theorem fireEntry_timing (e : PlanEntry) (s : State) : TimingFrame s (fireEntry e s) := by
  unfold fireEntry
  extract_lets x
  have fired : TimingFrame s x.state := by
    dsimp only [x]
    split
    · exact fireSet_timing _ _ _ s
    · exact fireOverride_timing _ _ _ _ s
    · exact fireEndOverride_timing _ s
  split
  · exact fired.trans (countPlanMiss_frame _).timing
  · exact fired

theorem dueCheckAt_timing (now : Clock) (n : Nat) (s : State) : TimingFrame s (dueCheckAt now n s).1 := by
  induction n generalizing s with
  | zero => exact .refl s
  | succ n ih =>
    unfold dueCheckAt
    split
    · exact .refl s
    split
    · next e rest _ _ =>
      refine (fireEntry_timing e s).trans (TimingFrame.trans ?_ (ih _))
      exact .of_arbiter rfl rfl rfl
    · exact .refl s

theorem dueCheck_timing (s : State) : TimingFrame s (dueCheck s).1 := by
  unfold dueCheck
  split
  · exact .refl s
  · exact dueCheckAt_timing _ _ s

theorem takeDueCheck_timing (s : State) : TimingFrame s (takeDueCheck s) := by
  unfold takeDueCheck
  split
  · refine TimingFrame.trans ?_ (dueCheck_timing _)
    exact .of_arbiter rfl rfl rfl
  · exact .refl s

theorem takeExpiry_timing (s : State) : TimingFrame s (takeExpiry s) := by
  unfold takeExpiry
  split
  · refine TimingFrame.trans (t := s.restartTimer) (.of_arbiter rfl rfl rfl) ?_
    unfold State.countExpiry
    split <;> exact setOwed_timing _ _ _
  · exact .refl s

theorem takeSecondWork_timing (s : State) : TimingFrame s (takeSecondWork s) :=
  ((takeExpiry_timing s).trans (takeOverrideEnds_frame _).timing).trans (takeDueCheck_timing _)

/-! ## Ends of transactions -/

theorem releaseCoupler_timing (s : State) (c : Context) (n : Nat) : TimingFrame s (s.releaseCoupler c n) := by
  constructor <;> rfl

theorem accountSource_timing (s : State) (x : Source) : TimingFrame s (s.accountSource x) := by
  cases x with
  | urgent => exact .refl s
  | normal => exact .refl s
  | refresh =>
    show TimingFrame s s.accountRefresh
    unfold State.accountRefresh
    split
    · exact .refl s
    · refine TimingFrame.trans ?_ (setOwed_timing _ _ _)
      exact .of_arbiter rfl rfl rfl

theorem withContexts_timing (s : State) (l : List Context) : TimingFrame s { s with contexts := l } :=
  .of_arbiter rfl rfl rfl

theorem endIndividual_timing (c : Context) (a : Addr) (s : State) : TimingFrame s (endIndividual c a s) :=
  ((((withContexts_timing s s.othersAtEnd).trans (applyResult_frame c a _ _).timing).trans
    (updRecord_frame _ _ _).timing).trans (accountSource_timing _ _)).trans (releaseCoupler_timing _ _ _)

theorem continueScrub_timing (c : Context) (a : Addr) (f : AckFrame) (h : Phase) (q : Quality) (s : State) :
    TimingFrame s (continueScrub c a f h q s) := by
  unfold continueScrub
  dsimp only
  have recorded := (changeRecord_frame s a fun x => (x.acked f h q none).decided .repair).timing
  split
  · exact recorded
  · exact recorded.trans (withContexts_timing _ _)

theorem endGroupFrame_timing (c : Context) (g : Group) (t : Tariff) (s : State) :
    TimingFrame s (endGroupFrame c g t s) :=
  ((withContexts_timing s s.othersAtEnd).trans (frameEnds_frame _ _ _ _ _ _).timing).trans (releaseCoupler_timing _ _ _)

theorem decideScrubPart_timing (c : Context) (a : Addr) (s : State) : TimingFrame s (decideScrubPart c a s) := by
  unfold decideScrubPart
  split
  · split
    · exact continueScrub_timing c a _ _ _ s
    · exact endIndividual_timing c a s
  · exact endIndividual_timing c a s

theorem takeNextEnd_timing (s : State) : TimingFrame s (takeNextEnd s) := by
  unfold takeNextEnd
  split
  · exact .refl s
  split
  · exact endGroupFrame_timing _ _ _ s
  · exact decideScrubPart_timing _ _ s
  all_goals exact endIndividual_timing _ _ s

theorem takeEnds_timing (n : Nat) (s : State) : TimingFrame s (takeEnds n s) := by
  induction n generalizing s with
  | zero => exact .refl s
  | succ n ih => exact (takeNextEnd_timing s).trans (ih _)

/-! ## The weighing -/

theorem launch_timing (s : State) (j : Job) (x : Source) (k : Coupler) (l : List Addr) (p : Nat) :
    TimingFrame s (s.launch j x k l p) := .of_arbiter rfl rfl rfl

theorem launchFor_timing (s : State) (r : Record) (j : Job) (x : Source) (l : List Addr) (p : Nat) :
    TimingFrame s (s.launchFor r j x l p) :=
  ((launch_timing s j x r.coupler l p).trans (dropEntries_frame _ _).timing).trans (updRecord_frame _ _ _).timing

theorem launchEntry_timing (s : State) (q : QueueId) (e : Entry) : TimingFrame s (s.launchEntry q e) := by
  unfold State.launchEntry
  split
  · exact (launch_timing s _ _ _ _ _).trans (updAll_frame _ _).timing
  all_goals
    split
    · exact .refl s
    split
    · exact .refl s
    · exact launchFor_timing s _ _ _ _ _

theorem setQueue_timing (s : State) (q : QueueId) (l : List Entry) : TimingFrame s (s.setQueue q l) := by
  cases q <;> exact .of_arbiter rfl rfl rfl

theorem weighQueue_timing (q : QueueId) (s : State) : TimingFrame s (weighQueue q s).state := by
  unfold weighQueue
  dsimp only
  split
  · exact setQueue_timing s _ _
  · exact (setQueue_timing s _ _).trans (launchEntry_timing _ _ _)

theorem launchRefresh_timing (s : State) (r : Record) (j : Job) : TimingFrame s (s.launchRefresh r j) := by
  refine TimingFrame.trans ?_ (launchFor_timing _ _ _ _ _ _)
  constructor <;> rfl

theorem weighRefresh_timing (s : State) : TimingFrame s (weighRefresh s).state := by
  unfold weighRefresh
  split
  · exact .refl s
  split
  · exact setOwed_timing s _ _
  dsimp only
  split
  · exact launchRefresh_timing s _ _
  · exact .refl s

theorem weighFree_timing (s : State) : TimingFrame s (weighFree s) := by
  unfold weighFree
  dsimp only
  have urgent := weighQueue_timing .urgent s
  have refresh := urgent.trans (weighRefresh_timing _)
  split
  · exact urgent
  split
  · exact refresh
  · exact refresh.trans (weighQueue_timing .normal _)

theorem weigh_timing (s : State) : TimingFrame s (weigh s) := by
  unfold weigh
  split
  · constructor <;> rfl
  split
  · exact .refl s
  · exact weighFree_timing s

end Sys2Proof.Machine
end

section
/-! PROOF. Every request but CONFIGURE and RESTART leaves the Mains Timing Unit and the line parameters as they are. -/

namespace Sys2Proof.Machine

/-! ## Requests on the table -/

theorem statusRequest_timing (x : Byte) (s : State) : TimingFrame s (statusRequest x s).state := by
  unfold statusRequest
  split
  · exact .refl s
  · dsimp only [answerWith]
    split
    · exact .of_arbiter rfl rfl rfl
    · exact .refl s

theorem segmentSetRequest_timing (x : Byte) (s : State) : TimingFrame s (segmentSetRequest x s).state := by
  unfold segmentSetRequest
  split
  · exact .refl s
  · exact .of_arbiter rfl rfl rfl

theorem windowSetRequest_timing (w : Byte) (b l : Half) (x e : Byte) (s : State) :
    TimingFrame s (windowSetRequest w b l x e s).state := by
  unfold windowSetRequest
  split
  · split
    · split
      · exact .of_arbiter rfl rfl rfl
      · exact .refl s
    · exact .refl s
  · exact .refl s

theorem enrolRecord_timing (r : Record) (p : Nat) (s : State) : TimingFrame s (enrolRecord r p s).1 := by
  have added : TimingFrame s { s with table := insertRecord r s.table } := .of_arbiter rfl rfl rfl
  unfold enrolRecord
  dsimp only
  split
  · exact added.trans (placeDelivery_frame _ _ _ _).timing
  · exact added

theorem enrolRequest_timing (f : EnrolFields) (s : State) : TimingFrame s (enrolRequest f s).state := by
  unfold enrolRequest
  split
  · exact .refl s
  split
  · exact .refl s
  split
  · split
    · exact enrolRecord_timing _ _ s
    all_goals exact .refl s
  · exact .refl s

theorem rerouteRetry_timing (a : Addr) (s : State) : TimingFrame s (rerouteRetry a s) := by
  unfold rerouteRetry
  split
  · exact .refl s
  · exact .of_arbiter rfl rfl rfl

theorem amendRoutes_timing (f : AmendFields) (a : Addr) (s : State) : TimingFrame s (amendRoutes f a s) := by
  unfold amendRoutes
  dsimp only
  split
  · exact (updRecord_frame s _ _).timing.trans (rerouteRetry_timing a _)
  · exact (updRecord_frame s _ _).timing

theorem amendGroups_timing (f : AmendFields) (a : Addr) (p : Nat) (s : State) :
    TimingFrame s (amendGroups f a p s) := by
  unfold amendGroups
  have stored := (updRecord_frame s a (amendRegrouped f)).timing
  dsimp only
  split
  · exact stored
  split
  · exact (stored.trans (updRecord_frame _ _ _).timing).trans (placeDelivery_frame _ _ _ _).timing
  · exact stored

theorem amendNoticeGroup_timing (f : AmendFields) (a : Addr) (s : State) :
    TimingFrame s (amendNoticeGroup f a s) := by
  unfold amendNoticeGroup
  split
  · exact .refl s
  · exact (changeRecord_frame s _ _).timing

theorem becomeDeferred_timing (a : Addr) (s : State) : TimingFrame s (becomeDeferred a s) := by
  unfold becomeDeferred
  split
  · exact .refl s
  split
  · exact (dropEntries_frame s _).timing.trans (updRecord_frame _ _ _).timing
  · exact .refl s

theorem becomeImmediate_timing (a : Addr) (p : Nat) (s : State) : TimingFrame s (becomeImmediate a p s) := by
  unfold becomeImmediate
  split
  · exact .refl s
  split
  · split
    · exact (pushEntry_frame s a p).timing
    · exact (countQueueFull_frame s).timing
  · exact .refl s

theorem amendClass_timing (a : Addr) (old new : EndpointClass) (p : Nat) (s : State) :
    TimingFrame s (amendClass a old new p s) := by
  unfold amendClass
  extract_lets stored
  have written : TimingFrame s stored := (updRecord_frame s _ _).timing
  have dropped := written.trans (dropEntries_frame stored (Entry.isFor a)).timing
  split
  · exact written.trans (becomeDeferred_timing a _)
  · exact written.trans (becomeImmediate_timing a p _)
  · exact dropped.trans (changeRecord_frame _ _ _).timing
  · exact dropped.trans (changeRecord_frame _ _ _).timing
  · exact dropped.trans (updRecord_frame _ _ _).timing
  · exact dropped.trans (updRecord_frame _ _ _).timing
  all_goals exact written

theorem amendRecord_timing (f : AmendFields) (r : Record) (p : Nat) (s : State) :
    TimingFrame s (amendRecord f r p s) :=
  (((amendRoutes_timing f r.addr s).trans (amendGroups_timing f _ p _)).trans
    (amendNoticeGroup_timing f _ _)).trans (amendClass_timing _ _ _ p _)

theorem amendRequest_timing (f : AmendFields) (s : State) : TimingFrame s (amendRequest f s).state := by
  unfold amendRequest
  split
  · exact .refl s
  split
  · exact .refl s
  split
  · exact .refl s
  split
  · exact .refl s
  split
  · exact amendRecord_timing f _ _ s
  all_goals exact .refl s

theorem retireRequest_timing (a : Half) (s : State) : TimingFrame s (retireRequest a s).state := by
  unfold retireRequest
  split
  · exact .refl s
  split
  · exact .refl s
  split
  · exact .refl s
  · exact (retireRecord_frame _ s).timing

theorem queryRequest_timing (a : Half) (s : State) : TimingFrame s (queryRequest a s).state := by
  unfold queryRequest
  split
  · exact .refl s
  split <;> exact .refl s

/-! ## SET, groups, overrides -/

theorem setRequest_timing (a : Half) (t p : Byte) (s : State) : TimingFrame s (setRequest a t p s).state := by
  unfold setRequest
  split
  · exact .refl s
  split
  · exact .refl s
  split
  · exact (setOne_frame _ _ _ _ s).timing
  · exact .refl s

theorem setRangeRequest_timing (g u : Byte) (n : Half) (t p : Byte) (s : State) :
    TimingFrame s (setRangeRequest g u n t p s).state := by
  unfold setRangeRequest
  split
  · split
    · exact (setRangeWalk_frame _ _ _ _ _ _ s).timing
    · exact .refl s
  · exact .refl s

theorem setGroupRequest_timing (g t p : Byte) (s : State) : TimingFrame s (setGroupRequest g t p s).state := by
  unfold setGroupRequest
  split
  · exact setGroupTo_timing _ _ _ _ s
  · exact .refl s

theorem groupSetRequest_timing (g r : Byte) (s : State) : TimingFrame s (groupSetRequest g r s).state := by
  unfold groupSetRequest
  split
  · exact .refl s
  split
  · exact .of_arbiter rfl rfl rfl
  · exact .refl s

theorem groupQueryRequest_timing (g : Byte) (s : State) : TimingFrame s (groupQueryRequest g s).state := by
  unfold groupQueryRequest
  split <;> exact .refl s

theorem overrideRequest_timing (x : Half) (t : Byte) (m : Half) (p : Byte) (s : State) :
    TimingFrame s (overrideRequest x t m p s).state := by
  unfold overrideRequest
  split
  · split
    · exact .refl s
    · exact (overrideOne_frame _ _ _ _ _ s).timing
  · exact .refl s

theorem overrideGroupRequest_timing (x : Half) (t : Byte) (m : Half) (p : Byte) (s : State) :
    TimingFrame s (overrideGroupRequest x t m p s).state := by
  unfold overrideGroupRequest
  split
  · exact overrideGroupTo_timing _ _ _ _ _ s
  · exact .refl s

theorem endOverrideRequest_timing (x : Half) (s : State) : TimingFrame s (endOverrideRequest x s).state := by
  unfold endOverrideRequest
  split
  · exact .refl s
  split
  · exact .refl s
  · exact (endOverrideOf_frame _ s).timing

theorem endOverrideGroupRequest_timing (x : Half) (s : State) :
    TimingFrame s (endOverrideGroupRequest x s).state := by
  unfold endOverrideGroupRequest
  split
  · exact .refl s
  split
  · exact .refl s
  · next h => exact endOverridesOf_timing h

/-! ## POLL, PUSH, FORGET -/

theorem pollRequest_timing (a : Half) (p : Byte) (s : State) : TimingFrame s (pollRequest a p s).state := by
  unfold pollRequest
  split
  · exact .refl s
  split
  · exact .refl s
  split
  · exact .refl s
  split
  · exact .refl s
  split
  · exact .refl s
  split
  · exact .refl s
  split
  · exact (insertEntry_frame s _ _).timing.trans (updRecord_frame _ _ _).timing
  · exact (countQueueFull_frame s).timing

theorem pushAllRequest_timing (p : Byte) (s : State) : TimingFrame s (pushAllRequest p s).state := by
  unfold pushAllRequest
  split
  · exact .refl s
  · next p _ =>
    have walked : TimingFrame s (s.addrs.foldl (pushOne p) (s, { queued := 0, remaining := 0, lost := 0 })).1 :=
      foldl_relates (fun x y : State × PushCounts => TimingFrame x.1 y.1) (fun _ => .refl _)
        (fun h k => TimingFrame.trans h k) _ (fun w a => (pushOne_frame p w a).timing) s.addrs (s, _)
    dsimp only [answerWith]
    split
    · exact walked.trans (countQueueFull_frame _).timing
    · exact walked

theorem pushRequest_timing (a : Half) (p : Byte) (s : State) : TimingFrame s (pushRequest a p s).state := by
  unfold pushRequest
  split
  · exact pushAllRequest_timing p s
  split
  · exact .refl s
  split
  · exact .refl s
  split
  · exact .refl s
  split
  · exact .refl s
  split
  · exact .refl s
  split
  · exact (pushEntry_frame s _ _).timing
  · exact (countQueueFull_frame s).timing

theorem forgetOne_timing (a : Addr) (s : State) : TimingFrame s (forgetOne a s) :=
  have ⟨frame, _, arbiter⟩ := forgetOne_frame a s
  .of_arbiter frame.mains arbiter frame.attempts

theorem forgetRequest_timing (a : Half) (s : State) : TimingFrame s (forgetRequest a s).state := by
  unfold forgetRequest
  split
  · exact .refl s
  split
  · exact .refl s
  split
  · exact (updRecord_frame s _ _).timing
  · exact forgetOne_timing _ s

theorem forgetAllRequest_timing (s : State) : TimingFrame s (forgetAllRequest s).state :=
  (foldl_relates TimingFrame .refl TimingFrame.trans _ (fun t a => forgetOne_timing a t) _ s).trans
    (dropEntries_frame _ _).timing

/-! ## Plan and clock -/

theorem planAddRequest_timing (f : PlanFields) (s : State) : TimingFrame s (planAddRequest f s).state := by
  unfold planAddRequest
  split
  · split
    · dsimp only
      split
      · exact .refl s
      · refine (takeDueCheck_timing s).trans (TimingFrame.trans ?_ (dueCheck_timing _))
        exact .of_arbiter rfl rfl rfl
    · exact .refl s
  · exact .refl s

theorem planRemoveRequest_timing (x : Byte) (s : State) : TimingFrame s (planRemoveRequest x s).state := by
  unfold planRemoveRequest
  split
  · exact .refl s
  split
  · exact .of_arbiter rfl rfl rfl
  · exact .refl s

theorem planListRequest_timing (x : Byte) (s : State) : TimingFrame s (planListRequest x s).state := by
  unfold planListRequest
  split <;> exact .refl s

theorem timeSetRequest_timing (d : Half) (x : BitVec 24) (s : State) :
    TimingFrame s (timeSetRequest d x s).state := by
  unfold timeSetRequest
  split
  · have written (x : Timebase) : TimingFrame s { takeDueCheck s with timebase := x } :=
      (takeDueCheck_timing s).trans (.of_arbiter rfl rfl rfl)
    dsimp only [answerWith]
    split
    · exact written _
    · exact (written _).trans (dueCheck_timing _)
  · exact .refl s

/-! ## Refresh and notices -/

theorem refreshNowRequest_timing (n : Half) (s : State) : TimingFrame s (refreshNowRequest n s).state := by
  unfold refreshNowRequest
  split
  · exact setOwed_timing s _ _
  · exact .refl s

theorem evaluateLine_timing (b m s : State) (l : Line) : TimingFrame s (evaluateLine b m s l) := by
  unfold evaluateLine
  split
  · split
    · exact .of_arbiter (by simp) (by simp) (by simp)
    · exact .refl s
  · exact testLine_timing s l

theorem noticeMapSetRequest_timing (k g l : Byte) (s : State) :
    TimingFrame s (noticeMapSetRequest k g l s).state := by
  unfold noticeMapSetRequest
  split
  · next sources target _ _ =>
    refine TimingFrame.trans (t := s.remapped sources target) (.of_arbiter rfl rfl rfl) ?_
    exact foldl_relates TimingFrame .refl TimingFrame.trans _ (evaluateLine_timing s _) _ _
  · exact .refl s

theorem setLine_timing (s : State) (l : Line) (f : NoticeLine → NoticeLine) : TimingFrame s (s.setLine l f) :=
  .of_arbiter rfl rfl rfl

theorem noticeLineSetRequest_timing (l m e : Byte) (t : Half) (s : State) :
    TimingFrame s (noticeLineSetRequest l m e t s).state := by
  unfold noticeLineSetRequest
  split
  · exact .refl s
  split
  · dsimp only [answerWith]
    split
    · exact setLine_timing s _ _
    · exact (setLine_timing s _ _).trans (testLine_timing _ _)
  · exact .refl s

theorem noticeDoneRequest_timing (t : Half) (s : State) : TimingFrame s (noticeDoneRequest t s).state := by
  unfold noticeDoneRequest
  split
  · exact (foldl_relates TimingFrame .refl TimingFrame.trans _ (fun s l => setLine_timing s l _) _ s).trans
      (foldl_relates TimingFrame .refl TimingFrame.trans _ testLine_timing _ _)
  · exact .refl s

/-! ## Every request -/

/-- Only CONFIGURE and RESTART reach the line parameters, and no request the Mains Timing Unit's. -/
theorem carryOut_timing {i : Instr} (s : State) (configure : ∀ l, i ≠ .configure l) (restart : i ≠ .restart) :
    TimingFrame s (carryOut i s).state := by
  cases i with
  | configure l => exact absurd rfl (configure l)
  | restart => exact absurd rfl restart
  | status x => exact statusRequest_timing x s
  | segmentSet x => exact segmentSetRequest_timing x s
  | windowSet w b l x e => exact windowSetRequest_timing w b l x e s
  | enrol f => exact enrolRequest_timing f s
  | amend f => exact amendRequest_timing f s
  | retire a => exact retireRequest_timing a s
  | query a => exact queryRequest_timing a s
  | set a t p => exact setRequest_timing a t p s
  | setRange g u n t p => exact setRangeRequest_timing g u n t p s
  | setGroup g t p => exact setGroupRequest_timing g t p s
  | groupSet g r => exact groupSetRequest_timing g r s
  | groupQuery g => exact groupQueryRequest_timing g s
  | override x t m p => exact overrideRequest_timing x t m p s
  | overrideGroup x t m p => exact overrideGroupRequest_timing x t m p s
  | endOverride x => exact endOverrideRequest_timing x s
  | endOverrideGroup x => exact endOverrideGroupRequest_timing x s
  | poll a p => exact pollRequest_timing a p s
  | push a p => exact pushRequest_timing a p s
  | pushAll p => exact pushAllRequest_timing p s
  | forget a => exact forgetRequest_timing a s
  | forgetAll => exact forgetAllRequest_timing s
  | planAdd f => exact planAddRequest_timing f s
  | planRemove x => exact planRemoveRequest_timing x s
  | planList x => exact planListRequest_timing x s
  | timeSet d x => exact timeSetRequest_timing d x s
  | refreshNow n => exact refreshNowRequest_timing n s
  | noticeMapSet k g l => exact noticeMapSetRequest_timing k g l s
  | noticeLineSet l m e t => exact noticeLineSetRequest_timing l m e t s
  | noticeDone t => exact noticeDoneRequest_timing t s
  | _ => exact .refl s

end Sys2Proof.Machine
end

section
/-! PROOF. The line parameters and the slot grid stay legal over every step (R4, R8, R102, R103, R181). -/

namespace Sys2Proof.Machine

/-! ## The invariant in its parts -/

/-- A property of the active value and of the staged one, if there is one. -/
def Staged.Holds {α : Type} (p : α → Prop) (x : Staged α) : Prop :=
  ∀ v, v = x.active ∨ x.staged = some v → p v

/-- A slot length of R8. -/
def LegalLength (n : Nat) : Prop := n = 8 ∨ n = 12 ∨ n = 16 ∨ n = 24

/-- The arbiter's line parameters are legal (R102, R181). -/
structure Arbiter.LineWf (x : Arbiter) : Prop where
  slotHc : x.slotHc.Holds LegalLength
  guard : x.guard.Holds (· ≤ 3)
  lineMask : x.lineMask ≤ 7

/-- The half-cycles closed stay below a legal length, and are none where a boundary is due (R4). -/
def Mains.GridWf (m : Mains) : Prop :=
  ∀ g, m.grid = some g → LegalLength g.length ∧ g.half < g.length ∧ (m.boundaryDue = true → g.half = 0)

theorem gridWf_iff {s : State} :
    s.gridWf ↔ s.arbiter.LineWf ∧ (1 ≤ s.attempts ∧ s.attempts ≤ 7) ∧ s.mains.GridWf := by
  constructor
  · rintro ⟨slotHc, guard, mask, low, high, grid⟩
    exact ⟨⟨slotHc, guard, mask⟩, ⟨low, high⟩, grid⟩
  · rintro ⟨⟨slotHc, guard, mask⟩, ⟨low, high⟩, grid⟩
    exact ⟨slotHc, guard, mask, low, high, grid⟩

/-! ## What keeps the line parameters legal -/

theorem Staged.Holds.apply {α : Type} {p : α → Prop} {x : Staged α} (h : x.Holds p) : x.apply.Holds p := by
  rintro v (rfl | staged)
  · cases e : x.staged with
    | none => exact h _ (.inl (by simp [Staged.apply, e]))
    | some w => exact h _ (.inr (by simp [Staged.apply, e]))
  · cases staged

theorem Staged.Holds.stage {α : Type} {p : α → Prop} {x : Staged α} {v : α} (h : x.Holds p) (new : p v) :
    (x.stage v).Holds p := by
  rintro w (rfl | staged)
  · exact h _ (.inl rfl)
  · cases staged
    exact new

/-- The parameters are legal where they are those of an arbiter that has legal ones. -/
theorem Arbiter.LineWf.congr {x y : Arbiter} (h : x.LineWf) (slotHc : y.slotHc = x.slotHc)
    (guard : y.guard = x.guard) (lineMask : y.lineMask = x.lineMask) : y.LineWf where
  slotHc := slotHc ▸ h.slotHc
  guard := guard ▸ h.guard
  lineMask := lineMask ▸ h.lineMask

theorem Arbiter.LineWf.applyStaged {x : Arbiter} (h : x.LineWf) : x.applyStaged.LineWf where
  slotHc := h.slotHc.apply
  guard := h.guard.apply
  lineMask := h.lineMask

theorem Arbiter.LineWf.active {x : Arbiter} (h : x.LineWf) : LegalLength x.slotHc.active := h.slotHc _ (.inl rfl)

/-- What leaves the Mains Timing Unit and the line parameters keeps the invariant. -/
theorem TimingFrame.gridWf {s t : State} (h : TimingFrame s t) (w : s.gridWf) : t.gridWf := by
  obtain ⟨params, attempts, grid⟩ := gridWf_iff.mp w
  refine gridWf_iff.mpr ⟨params.congr h.slotHc h.guard h.lineMask, ?_, ?_⟩
  · rwa [h.attempts]
  · rwa [h.mains]

/-! ## What keeps the grid legal -/

theorem gridWf_of_grid_none {m : Mains} (h : m.grid = none) : m.GridWf := by
  intro g hg
  rw [h] at hg
  cases hg

/-- A counted crossing closes a half-cycle; the slot's last makes a boundary due and starts again from 0 (R4). -/
theorem closeHalfCycle_gridWf {m : Mains} (h : m.GridWf) (due : m.boundaryDue = false) : m.closeHalfCycle.GridWf := by
  unfold Mains.closeHalfCycle
  split
  · exact h
  next g hg =>
    obtain ⟨legal, below, -⟩ := h g hg
    split
    · rintro _ ⟨⟩
      exact ⟨legal, by simp only; omega, fun _ => rfl⟩
    · rintro _ ⟨⟩
      exact ⟨legal, by simp only; omega, fun on => by simp [due] at on⟩

/-- Writing the Mains Timing Unit keeps the invariant where its new grid is legal. -/
theorem setMains_gridWf {s : State} {f : Mains → Mains} (w : s.gridWf) (h : (f s.mains).GridWf) :
    (s.setMains f).gridWf := by
  obtain ⟨params, attempts, -⟩ := gridWf_iff.mp w
  exact gridWf_iff.mpr ⟨params, attempts, h⟩

/-- A run of crossings is counted beside the grid. -/
theorem Mains.GridWf.congr {m n : Mains} (h : m.GridWf) (grid : n.grid = m.grid) (due : n.boundaryDue = m.boundaryDue) :
    n.GridWf := by
  unfold Mains.GridWf
  rwa [grid, due]

/-! ## The slot boundary -/

theorem applyStagedIfQuiet_gridWf {s : State} (w : s.gridWf) : s.applyStagedIfQuiet.gridWf := by
  unfold State.applyStagedIfQuiet
  split
  · obtain ⟨params, attempts, grid⟩ := gridWf_iff.mp w
    exact gridWf_iff.mpr ⟨params.applyStaged, attempts, grid⟩
  · exact w

/-- The slot that begins takes the active length; no half-cycle of it is closed, since a boundary was due (R8). -/
theorem beginSlot_gridWf {s : State} (w : s.gridWf) (due : s.mains.boundaryDue = true) : s.beginSlot.gridWf := by
  obtain ⟨params, attempts, grid⟩ := gridWf_iff.mp w
  refine gridWf_iff.mpr ⟨params, attempts, fun g hg => ?_⟩
  obtain ⟨old, hold, rfl⟩ := Option.map_eq_some_iff.mp (show s.mains.grid.map _ = some g from hg)
  obtain ⟨-, -, zero⟩ := grid old hold
  have legal := params.active
  refine ⟨legal, ?_, fun _ => zero due⟩
  show old.half < s.arbiter.slotHc.active
  unfold LegalLength at legal
  rw [zero due]
  omega

theorem takeBoundary_of_not_due {s : State} (h : s.mains.boundaryDue = false) : takeBoundary s = s := by
  simp [takeBoundary, h]

/-- After SLOT_BOUNDARY no boundary is due. -/
theorem takeBoundary_settled (s : State) : (takeBoundary s).mains.boundaryDue = false := by
  cases due : s.mains.boundaryDue with
  | false => rw [takeBoundary_of_not_due due, due]
  | true =>
    rw [takeBoundary, if_pos due, (weigh_timing _).mains]
    rfl

theorem takeBoundary_gridWf {s : State} (w : s.gridWf) : (takeBoundary s).gridWf := by
  cases due : s.mains.boundaryDue with
  | false => rwa [takeBoundary_of_not_due due]
  | true =>
    rw [takeBoundary, if_pos due]
    have ends := takeEnds_timing s.contexts.length s
    have staged := applyStagedIfQuiet_gridWf (ends.gridWf w)
    have stillDue : (takeEnds s.contexts.length s).applyStagedIfQuiet.mains.boundaryDue = true := by
      rw [← due, ← ends.mains]
      unfold State.applyStagedIfQuiet
      split <;> rfl
    exact (weigh_timing _).gridWf (beginSlot_gridWf staged stillDue)

/-! ## The crossings (R2 to R7) -/

/-- The lock lays a grid of the length that is then active (R3, R103). -/
theorem layGrid_gridWf {s : State} (w : s.gridWf) (f : Frequency) : (s.layGrid f).gridWf := by
  obtain ⟨params, attempts, -⟩ := gridWf_iff.mp w
  have applied := params.applyStaged
  refine gridWf_iff.mpr ⟨applied.congr rfl rfl rfl, attempts, ?_⟩
  rintro _ ⟨⟩
  have legal := applied.active
  refine ⟨legal, ?_, fun _ => rfl⟩
  unfold LegalLength at legal
  show 0 < s.arbiter.applyStaged.slotHc.active
  omega

theorem restoreSweep_timing (s : State) : TimingFrame s s.restoreSweep := by
  have walked (x : Refresh) : TimingFrame s { s with refresh := x } := .of_arbiter rfl rfl rfl
  unfold State.restoreSweep
  dsimp only
  split <;> exact (walked _).trans (setOwed_timing _ _ _)

theorem takeReturn_gridWf {s : State} (w : s.gridWf) : s.takeReturn.gridWf := by
  obtain ⟨-, -, grid⟩ := gridWf_iff.mp w
  exact ((noticeChange_timing s _).trans (restoreSweep_timing _)).gridWf (setMains_gridWf w (grid.congr rfl rfl))

theorem lock_gridWf {s : State} (w : s.gridWf) : s.lock.gridWf := by
  unfold State.lock
  have laid := layGrid_gridWf w (lockFrequency s.mains.runSum)
  dsimp only
  split
  · exact takeReturn_gridWf laid
  · exact laid

theorem crossingAcquiring_gridWf {s : State} (time : Nat) (w : s.gridWf) : (crossingAcquiring time s).gridWf := by
  obtain ⟨-, -, grid⟩ := gridWf_iff.mp w
  unfold crossingAcquiring
  dsimp only
  split
  · exact setMains_gridWf w (grid.congr rfl rfl)
  · split
    · exact lock_gridWf (setMains_gridWf w (grid.congr rfl rfl))
    · exact setMains_gridWf w (grid.congr rfl rfl)

theorem crossingUp_gridWf {s : State} (time : Nat) (w : s.gridWf) (due : s.mains.boundaryDue = false) :
    (crossingUp time s).gridWf := by
  obtain ⟨-, -, grid⟩ := gridWf_iff.mp w
  unfold crossingUp
  split
  · exact setMains_gridWf w (closeHalfCycle_gridWf (grid.congr rfl rfl) due)
  · exact w

theorem takeCrossing_gridWf {s : State} (time : Nat) (w : s.gridWf) : (takeCrossing time s).gridWf := by
  have taken := takeBoundary_gridWf w
  unfold takeCrossing
  dsimp only
  split
  · exact crossingAcquiring_gridWf time taken
  · exact crossingUp_gridWf time taken (takeBoundary_settled s)
  · obtain ⟨-, -, grid⟩ := gridWf_iff.mp taken
    exact setMains_gridWf taken (grid.congr rfl rfl)

theorem takeMissing_gridWf {s : State} (w : s.gridWf) : (takeMissing s).gridWf := by
  have taken := takeBoundary_gridWf w
  obtain ⟨-, -, grid⟩ := gridWf_iff.mp taken
  exact setMains_gridWf taken (closeHalfCycle_gridWf (grid.congr rfl rfl) (takeBoundary_settled s))

/-- Mains loss takes the grid away and leaves the line parameters (R6, R92). -/
theorem takeLoss_gridWf {s : State} (w : s.gridWf) : (takeLoss s).gridWf := by
  obtain ⟨params, attempts, -⟩ := gridWf_iff.mp (takeBoundary_gridWf w)
  refine (noticeChange_timing _ _).gridWf (gridWf_iff.mpr ⟨?_, attempts, gridWf_of_grid_none rfl⟩)
  exact params.congr rfl rfl rfl

/-! ## CONFIGURE and RESTART -/

theorem redecode_timing (s : State) : TimingFrame s s.redecode := (updAll_frame s _).timing

theorem restartTimer_timing (s : State) : TimingFrame s s.restartTimer := .of_arbiter rfl rfl rfl

theorem configured_timing (pairs : List (Byte × Half)) (b s : State) : TimingFrame s (configured pairs b s) := by
  unfold configured
  extract_lets routed timed
  have decoded : TimingFrame s routed := by
    dsimp only [routed]
    split
    · exact .refl s
    · exact redecode_timing s
  have restarted : TimingFrame s timed := by
    dsimp only [timed]
    split
    · exact decoded.trans (restartTimer_timing _)
    · exact decoded
  split
  · exact restarted.trans (evaluateBacklog_timing _)
  · exact restarted

/-- A value in the range of its parameter keeps the line parameters legal (R181). -/
theorem setParam_gridWf {s : State} {number : Byte} {v : Half} (w : s.gridWf) (ok : paramOk number v = true) :
    (s.setParam number v).gridWf := by
  obtain ⟨params, attempts, grid⟩ := gridWf_iff.mp w
  have same {t : State} (h : TimingFrame s t) : t.gridWf := h.gridWf w
  unfold State.setParam
  unfold paramOk at ok
  split <;> rename_i is <;> simp only [is] at ok
  case h_1 =>
    have legal : LegalLength v.toNat := by
      simp only [Bool.or_eq_true, beq_iff_eq] at ok
      rcases ok with ((rfl | rfl) | rfl) | rfl <;> simp [LegalLength]
    exact gridWf_iff.mpr ⟨⟨params.slotHc.stage legal, params.guard, params.lineMask⟩, attempts, grid⟩
  case h_3 =>
    have legal : v.toNat ≤ 3 := by simpa [within] using ok
    exact gridWf_iff.mpr ⟨⟨params.slotHc, params.guard.stage legal, params.lineMask⟩, attempts, grid⟩
  case h_4 =>
    have legal : 1 ≤ v.toNat ∧ v.toNat ≤ 7 := by simpa [within] using ok
    exact gridWf_iff.mpr ⟨params, legal, grid⟩
  case h_6 =>
    have legal : v.toNat ≤ 7 := by simpa [within] using ok
    exact gridWf_iff.mpr ⟨⟨params.slotHc, params.guard, legal⟩, attempts, grid⟩
  all_goals exact same (by constructor <;> rfl)

theorem setParams_gridWf (pairs : List (Byte × Half)) {s : State} (w : s.gridWf)
    (ok : ∀ x ∈ pairs, paramOk x.1 x.2 = true) : (pairs.foldl (fun t x => t.setParam x.1 x.2) s).gridWf := by
  induction pairs generalizing s with
  | nil => exact w
  | cons x xs ih =>
    exact ih (setParam_gridWf w (ok x List.mem_cons_self)) fun y hy => ok y (List.mem_cons_of_mem x hy)

theorem configureRequest_gridWf (pairs : List (Byte × Half)) {s : State} (w : s.gridWf) :
    (configureRequest pairs s).state.gridWf := by
  unfold configureRequest
  split
  · exact w
  split
  · exact w
  next good =>
    simp only [pairsOk, Bool.not_eq_false, Bool.and_eq_true, List.all_eq_true] at good
    exact (configured_timing pairs s _).gridWf (setParams_gridWf pairs w good.1)

theorem abortGroupFrame_timing (s : State) (c : Context) : TimingFrame s (abortGroupFrame s c) := by
  unfold abortGroupFrame
  split
  · exact (frameEnds_frame _ _ _ _ _ s).timing
  all_goals exact .refl s

theorem abortIndividual_timing (s : State) (c : Context) : TimingFrame s (abortIndividual s c) := by
  unfold abortIndividual
  split
  case h_5 => exact .refl s
  all_goals exact (updRecord_frame s _ _).timing.trans (updRecord_frame _ _ _).timing

theorem restartLine_timing (s : State) : TimingFrame s (restartLine s) := by
  unfold restartLine
  extract_lets quiet applied
  have frames := foldl_relates TimingFrame .refl TimingFrame.trans _ abortGroupFrame_timing quiet.contexts quiet
  have targets := foldl_relates TimingFrame .refl TimingFrame.trans _ abortIndividual_timing quiet.contexts
    (quiet.contexts.foldl abortGroupFrame quiet)
  have start : TimingFrame s quiet := .of_arbiter rfl rfl rfl
  have done : TimingFrame s applied := start.trans (frames.trans targets)
  exact done.trans (.of_arbiter rfl rfl rfl)

/-- The couplers of aborted work are released beside the line parameters. -/
theorem releaseAborted_lineWf (b : Boundary) (cs : List Context) {x : Arbiter} (h : x.LineWf) :
    (cs.foldl (releaseAborted b) x).LineWf := by
  induction cs generalizing x with
  | nil => exact h
  | cons c cs ih => exact ih (h.congr rfl rfl rfl)

theorem restartArbiter_gridWf {s : State} (w : s.gridWf) : (restartArbiter s).gridWf := by
  obtain ⟨params, attempts, grid⟩ := gridWf_iff.mp w
  have freed := releaseAborted_lineWf s.nextBoundary s.contexts params.applyStaged
  exact gridWf_iff.mpr ⟨freed.congr rfl rfl rfl, attempts, grid⟩

theorem restartRefresh_timing (s : State) : TimingFrame s (restartRefresh s) := by
  refine TimingFrame.trans ?_ (setOwed_timing _ _ _)
  exact .of_arbiter rfl rfl rfl

theorem restartNotices_timing (s : State) : TimingFrame s s.restartNotices :=
  .of_arbiter (by simp [State.restartNotices]) (by simp [State.restartNotices]) (by simp [State.restartNotices])

/-- RESTART takes the steps of R182 in turn. -/
theorem restartRequest_state (s : State) :
    (restartRequest s).state = (restartRefresh (restartArbiter (restartLine s))).restartNotices := by
  simp only [restartRequest, answerWith]

theorem restartRequest_gridWf {s : State} (w : s.gridWf) : (restartRequest s).state.gridWf := by
  rw [restartRequest_state]
  have line := (restartLine_timing s).gridWf w
  have arbiter := restartArbiter_gridWf line
  exact (restartNotices_timing _).gridWf ((restartRefresh_timing _).gridWf arbiter)

/-! ## Requests, frames of the link, steps -/

theorem carryOut_gridWf (i : Instr) {s : State} (w : s.gridWf) : (carryOut i s).state.gridWf := by
  by_cases configure : ∃ l, i = .configure l
  · obtain ⟨l, rfl⟩ := configure
    exact configureRequest_gridWf l w
  by_cases restart : i = .restart
  · subst restart
    exact restartRequest_gridWf w
  · exact (carryOut_timing s (fun l e => configure ⟨l, e⟩) restart).gridWf w

theorem reply_timing (x : Answer) (kind : Byte) : TimingFrame x.state (x.reply kind) := .of_arbiter rfl rfl rfl

theorem answerRequest_gridWf (kind : Byte) (payload : List Byte) {s : State} (w : s.gridWf) :
    (answerRequest kind payload s).gridWf := by
  unfold answerRequest
  split
  · exact (reply_timing _ kind).gridWf w
  · exact (reply_timing _ kind).gridWf w
  · next i _ => exact (reply_timing _ kind).gridWf (carryOut_gridWf i w)

theorem takeFrame_gridWf {s : State} (w : s.gridWf) : (takeFrame s).gridWf := by
  unfold takeFrame
  split
  · have freed : State.gridWf { s with link := { s.link with buffer := .free } } := w
    unfold judgeFrame
    split
    · exact freed
    split
    · exact freed
    split
    · exact answerRequest_gridWf _ _ freed
    · exact freed
  all_goals exact w

theorem sendNext_gridWf {s : State} (w : s.gridWf) : (sendNext s).gridWf := by
  unfold sendNext
  split
  · exact w
  split
  · exact takeFrame_gridWf w
  · exact w
  · exact w

theorem hearLine_timing (p : Phase) (bytes : List Byte) (q : Quality) (s : State) :
    TimingFrame s (hearLine p bytes q s) := by
  unfold hearLine
  split
  · exact .refl s
  split
  · exact .refl s
  · exact .refl s
  all_goals
    split
    · exact .of_arbiter rfl rfl rfl
    · exact .of_arbiter rfl rfl rfl
    · dsimp only
      split <;> exact .of_arbiter rfl rfl rfl

/-! ## Every command -/

/-- Every request's row carries the request out and places its reply (R176). -/
theorem gridWf_of_request {i : Instr} {s t : State} {kind : Byte} (w : s.gridWf) (h : exec i s = .next t)
    (request : exec i s = .next ((carryOut i s).reply kind)) : t.gridWf := by
  rw [request] at h
  cases h
  exact (reply_timing _ kind).gridWf (carryOut_gridWf i w)

/-- A row that takes an end takes the next one or none (R109). -/
theorem end_cases {i : Instr} {s t : State} (row : i = .transactionEnd ∨ i = .scrubDecision ∨ i = .groupFrameEnd)
    (h : exec i s = .next t) : t = s ∨ t = takeNextEnd s := by
  rcases row with rfl | rfl | rfl
  all_goals
    simp only [exec, execTransactionEnd, execScrubDecision, execGroupFrameEnd] at h
    split at h
    · cases h
      exact .inl rfl
    split at h <;> cases h
    · exact .inr rfl
    · exact .inl rfl

theorem gridWf_of_end {i : Instr} {s t : State} (w : s.gridWf)
    (row : i = .transactionEnd ∨ i = .scrubDecision ∨ i = .groupFrameEnd) (h : exec i s = .next t) : t.gridWf := by
  rcases end_cases row h with rfl | rfl
  · exact w
  · exact (takeNextEnd_timing s).gridWf w

/-- The framer's rows write the link and its counters (R173). -/
theorem framer_timing {i : Instr} {s t : State}
    (row : i = .frameStart ∨ i = .frameDiscarded ∨ i = .discardEnd ∨ i = .interByteGap) (h : exec i s = .next t) :
    TimingFrame s t := by
  rcases row with rfl | rfl | rfl | rfl
  all_goals
    simp only [exec, execFrameStart, execFrameDiscarded, execDiscardEnd, execInterByteGap] at h
    split at h <;> cases h <;> exact .of_arbiter rfl rfl rfl

theorem reset_gridWf : State.reset.gridWf := by
  refine gridWf_iff.mpr ⟨⟨?_, ?_, by decide⟩, by decide, gridWf_of_grid_none rfl⟩
  · rintro n (rfl | staged)
    · exact .inr (.inl rfl)
    · cases staged
  · rintro n (rfl | staged)
    · decide
    · cases staged

/-- Every command keeps the line parameters and the slot grid legal. -/
theorem exec_gridWf {i : Instr} {s t : State} (w : s.gridWf) (h : exec i s = .next t) : t.gridWf := by
  cases i with
  | powerOnReset x y =>
    cases h
    exact reset_gridWf
  | zeroCrossing time =>
    cases h
    exact takeCrossing_gridWf time w
  | acquiringMissingCrossing =>
    obtain ⟨-, -, grid⟩ := gridWf_iff.mp w
    simp only [exec, execAcquiringMissingCrossing] at h
    split at h <;> cases h
    · exact setMains_gridWf w (grid.congr rfl rfl)
    · exact w
    · exact w
  | missingCrossing =>
    simp only [exec, execMissingCrossing] at h
    split at h <;> cases h
    · exact takeMissing_gridWf w
    · exact w
  | mainsLoss =>
    simp only [exec, execMainsLoss] at h
    split at h <;> cases h
    · exact takeLoss_gridWf w
    · exact w
  | slotBoundary =>
    cases h
    exact takeBoundary_gridWf w
  | lineFrameReceived p bytes q =>
    cases h
    exact (hearLine_timing p bytes q s).gridWf w
  | transactionEnd => exact gridWf_of_end w (.inl rfl) h
  | scrubDecision => exact gridWf_of_end w (.inr (.inl rfl)) h
  | groupFrameEnd => exact gridWf_of_end w (.inr (.inr rfl)) h
  | secondEvent =>
    cases h
    exact (takeSecondWork_timing s).gridWf w
  | refreshIntervalExpiry =>
    cases h
    exact (takeExpiry_timing s).gridWf w
  | overrideEndDue =>
    cases h
    exact (takeOverrideEnds_frame s).timing.gridWf w
  | planEntryDue =>
    cases h
    exact (takeDueCheck_timing s).gridWf w
  | frameStart => exact (framer_timing (.inl rfl) h).gridWf w
  | frameDiscarded => exact (framer_timing (.inr (.inl rfl)) h).gridWf w
  | discardEnd => exact (framer_timing (.inr (.inr (.inl rfl))) h).gridWf w
  | interByteGap => exact (framer_timing (.inr (.inr (.inr rfl))) h).gridWf w
  | frameComplete bytes =>
    simp only [exec, execFrameComplete] at h
    split at h
    · split at h <;> cases h
      · exact takeFrame_gridWf w
      · exact w
    all_goals
      cases h
      exact w
  | frameError =>
    cases h
    exact w
  | unknownRequest kind =>
    cases h
    exact w
  | linkTransmitterFree =>
    cases h
    exact sendNext_gridWf w
  -- every other row is a request
  | _ => exact gridWf_of_request w h rfl

/-- Settles O56: an idle step leaves the state, and any other carries out a command on the state with the queue's
rest. -/
theorem stepKeepsGrid : Obligations.StepKeepsGrid := by
  unfold Obligations.StepKeepsGrid
  intro s t w h
  unfold step at h
  split at h
  · cases h
    exact w
  · next i rest _ => exact exec_gridWf (s := s.withPending rest) w h

end Sys2Proof.Machine
end

section
/-! PROOF. The Mains Timing Unit: crossings in each line state, the lock, the substitute crossing and mains loss
(R2 to R7, R66). -/

namespace Sys2Proof.Machine

/-! ## Crossings with no boundary due -/

/-- With no boundary due a crossing is taken by the line state alone (R2, R4, R7). -/
theorem exec_crossing_acquiring {s : State} (time : Nat) (due : s.mains.boundaryDue = false)
    (line : s.mains.line = .acquiring) : exec (.zeroCrossing time) s = .next (crossingAcquiring time s) := by
  simp only [exec, execZeroCrossing, takeCrossing, takeBoundary_of_not_due due, line]

theorem exec_crossing_up {s : State} (time : Nat) (due : s.mains.boundaryDue = false) (line : s.mains.line = .up) :
    exec (.zeroCrossing time) s = .next (crossingUp time s) := by
  simp only [exec, execZeroCrossing, takeCrossing, takeBoundary_of_not_due due, line]

theorem exec_crossing_down {s : State} (time : Nat) (due : s.mains.boundaryDue = false)
    (line : s.mains.line = .down) : exec (.zeroCrossing time) s = .next (crossingDown time s) := by
  simp only [exec, execZeroCrossing, takeCrossing, takeBoundary_of_not_due due, line]

theorem goodSpacing_iff {n : Nat} : goodSpacing n = true ↔ 7500 ≤ n ∧ n ≤ 11000 := by
  simp [goodSpacing]

/-- No run, or a spacing outside R2's bounds: the crossing starts a run. -/
theorem crossingAcquiring_starts {s : State} {time : Nat}
    (h : s.mains.good = 0 ∨ goodSpacing (time - s.mains.refTime) = false) :
    crossingAcquiring time s = s.setMains (·.startRun time) := by
  simp only [crossingAcquiring, if_pos h]

/-- The Mains Timing Unit with one more good crossing of the run in progress (R2). -/
def Mains.counted (m : Mains) (time : Nat) : Mains :=
  { m with good := m.good + 1, runSum := m.runSum + (time - m.refTime), refTime := time }

/-- A good spacing in a run is counted; with the sixteenth crossing the line locks (R2, R3). -/
theorem crossingAcquiring_counts {s : State} {time : Nat} (run : s.mains.good ≠ 0)
    (good : goodSpacing (time - s.mains.refTime) = true) :
    crossingAcquiring time s
      = if s.mains.good + 1 = 16 then (s.setMains (·.counted time)).lock else s.setMains (·.counted time) := by
  have carries : ¬(s.mains.good = 0 ∨ goodSpacing (time - s.mains.refTime) = false) := by simp [run, good]
  simp only [crossingAcquiring, if_neg carries]
  rfl

/-- Settles O4: R2's two cases of a crossing below the sixteenth. -/
theorem crossingInAcquiringIsJudged : Obligations.CrossingInAcquiringIsJudged := by
  unfold Obligations.CrossingInAcquiringIsJudged
  intro time s due line
  rw [exec_crossing_acquiring time due line]
  refine ⟨fun starts => ?_, fun run below low high => ?_⟩
  · have start : s.mains.good = 0 ∨ goodSpacing (time - s.mains.refTime) = false := by
      rw [← Bool.not_eq_true, goodSpacing_iff]
      omega
    simp only [crossingAcquiring_starts start]
    rfl
  · have notYet : ¬s.mains.good + 1 = 16 := by omega
    simp only [crossingAcquiring_counts (by omega) (goodSpacing_iff.mpr ⟨low, high⟩), if_neg notYet]
    rfl

theorem halfNominal_some (f : Frequency) : halfNominal (some f) = if f = .hz50 then 5000 else 4170 := by
  cases f <;> rfl

theorem nominal_some (f : Frequency) : nominal (some f) = if f = .hz50 then 10000 else 8330 := by
  cases f <;> rfl

/-- The half-cycle that is not the slot's last (R4). -/
theorem closeHalfCycle_within {m : Mains} {g : Grid} (grid : m.grid = some g) (h : g.half + 1 ≠ g.length) :
    m.closeHalfCycle = { m with grid := some { g with half := g.half + 1 } } := by
  simp only [Mains.closeHalfCycle, grid, if_neg h]

/-- The slot's last half-cycle (R4). -/
theorem closeHalfCycle_last {m : Mains} {g : Grid} (grid : m.grid = some g) (h : g.half + 1 = g.length) :
    m.closeHalfCycle
      = { m with grid := some { g with boundary := g.boundary + 1, half := 0 }, boundaryDue := true } := by
  simp only [Mains.closeHalfCycle, grid, if_pos h]

theorem crossingUp_disregards {s : State} {time : Nat} (h : time < s.mains.refTime + halfNominal s.mains.freq) :
    crossingUp time s = s :=
  if_neg (by omega)

theorem crossingUp_counts {s : State} {time : Nat} (h : s.mains.refTime + halfNominal s.mains.freq ≤ time) :
    crossingUp time s = s.setMains fun m => { m with missing := 0, refTime := time }.closeHalfCycle :=
  if_pos h

/-- Settles O6: a crossing too early, one that closes a half-cycle within the slot, and one that closes its last. -/
theorem crossingInUpIsCounted : Obligations.CrossingInUpIsCounted := by
  unfold Obligations.CrossingInUpIsCounted
  intro time s g f due line grid freq
  rw [exec_crossing_up time due line, ← halfNominal_some, ← freq]
  refine ⟨fun early => ?_, fun late within => ?_, fun late last => ?_⟩
  · simp only [crossingUp_disregards early]
  · simp only [crossingUp_counts late, State.setMains,
      closeHalfCycle_within (m := { s.mains with missing := 0, refTime := time }) grid within]
  · simp only [crossingUp_counts late, State.setMains,
      closeHalfCycle_last (m := { s.mains with missing := 0, refTime := time }) grid last]

/-- Settles O7: each row writes the run's fields alone. -/
theorem runsBeginAndEnd : Obligations.RunsBeginAndEnd := by
  unfold Obligations.RunsBeginAndEnd
  refine ⟨fun time s due line => ?_, fun s line => ?_⟩
  · rw [exec_crossing_down time due line]
    rfl
  · simp only [exec, execAcquiringMissingCrossing, line, State.setMains]

/-- Settles O8: the substitute crossing closes a half-cycle as a counted one does. -/
theorem missingCrossingIsSubstituted : Obligations.MissingCrossingIsSubstituted := by
  unfold Obligations.MissingCrossingIsSubstituted
  intro s g f due line missing grid freq
  have taken : exec .missingCrossing s = .next (s.setMains fun m =>
      { m with missing := 1, refTime := m.refTime + nominal m.freq }.closeHalfCycle) := by
    simp only [exec, execMissingCrossing, line, missing, and_self, if_true, takeMissing, takeBoundary_of_not_due due]
  rw [taken, ← nominal_some, ← freq]
  let counted : Mains := { s.mains with missing := 1, refTime := s.mains.refTime + nominal s.mains.freq }
  refine ⟨fun within => ?_, fun last => ?_⟩
  · simp only [State.setMains, closeHalfCycle_within (m := counted) grid within, counted]
  · simp only [State.setMains, closeHalfCycle_last (m := counted) grid last, counted]

/-! ## The lock (R3, R139) -/

/-- REFRESH_BACKLOG takes the level that R140 gives, and the Refresh Controller is else as it was. -/
theorem evaluateBacklog_refresh (s : State) :
    s.evaluateBacklog.refresh = { s.refresh with backlogLevel := s.refresh.overLimit } := by
  unfold State.evaluateBacklog
  split
  · next same => rw [same]
  · exact noticeChange_refresh _ _

theorem setOwed_refresh (s : State) (b m : Nat) :
    (s.setOwed b m).refresh
      = { s.refresh with
          backlog := b, missed := m
          backlogLevel := Refresh.overLimit { s.refresh with backlog := b, missed := m } } :=
  evaluateBacklog_refresh _

/-- The restore sweep: P is 0, and B in AUTO, M in EXTERNAL, is the number of records it counts (R139). -/
theorem restoreSweep_refresh (s : State) :
    s.restoreSweep.refresh.pointer = 0
      ∧ (s.refresh.mode = .auto →
          s.restoreSweep.refresh.backlog = min s.sweepCount 1023 ∧ s.restoreSweep.refresh.missed = s.refresh.missed)
      ∧ (s.refresh.mode = .external →
          s.restoreSweep.refresh.missed = s.sweepCount ∧ s.restoreSweep.refresh.backlog = s.refresh.backlog) := by
  cases mode : s.refresh.mode <;> simp [State.restoreSweep, mode, setOwed_refresh]

/-- A mains return sweeps the table it finds, in the mode it finds (R139, R161). -/
theorem takeReturn_refresh (s : State) :
    s.takeReturn.refresh.pointer = 0
      ∧ (s.refresh.mode = .auto →
          s.takeReturn.refresh.backlog = min s.sweepCount 1023 ∧ s.takeReturn.refresh.missed = s.refresh.missed)
      ∧ (s.refresh.mode = .external →
          s.takeReturn.refresh.missed = s.sweepCount ∧ s.takeReturn.refresh.backlog = s.refresh.backlog) := by
  have swept := restoreSweep_refresh (noticeChange s (s.setMains fun m => { m with returnFlag := false }))
  have count : (noticeChange s (s.setMains fun m => { m with returnFlag := false })).sweepCount = s.sweepCount := by
    simp [State.sweepCount]
  rw [count, noticeChange_refresh] at swept
  exact swept

theorem restoreSweep_frame (s : State) : EndFrame s s.restoreSweep ∧ s.restoreSweep.arbiter = s.arbiter
    ∧ s.restoreSweep.table = s.table ∧ s.restoreSweep.urgent = s.urgent ∧ s.restoreSweep.normal = s.normal := by
  unfold State.restoreSweep
  dsimp only
  split <;> exact ⟨by constructor <;> simp, by simp, by simp, by simp, by simp⟩

/-- A lock that is no mains return lays the grid and no more. -/
theorem lock_first {s : State} (h : s.mains.returnFlag = false) :
    s.lock = s.layGrid (lockFrequency s.mains.runSum) := by
  simp only [State.lock, h, Bool.false_eq_true, if_false]

theorem lock_return {s : State} (h : s.mains.returnFlag = true) :
    s.lock = (s.layGrid (lockFrequency s.mains.runSum)).takeReturn := by
  simp only [State.lock, h, if_true]

/-- What a lock writes is what laying the grid writes, but for the return flag, the notices and the Refresh
Controller. -/
theorem lock_frame (s : State) :
    let laid := s.layGrid (lockFrequency s.mains.runSum)
    s.lock.mains = { laid.mains with returnFlag := false } ∧ s.lock.arbiter = laid.arbiter
      ∧ s.lock.table = s.table ∧ s.lock.urgent = s.urgent ∧ s.lock.normal = s.normal := by
  cases h : s.mains.returnFlag with
  | false =>
    rw [lock_first h]
    refine ⟨?_, rfl, rfl, rfl, rfl⟩
    rw [← h]
    rfl
  | true =>
    rw [lock_return h]
    obtain ⟨frame, arbiter, table, urgent, normal⟩ := restoreSweep_frame
      (noticeChange (s.layGrid (lockFrequency s.mains.runSum))
        ((s.layGrid (lockFrequency s.mains.runSum)).setMains fun m => { m with returnFlag := false }))
    unfold State.takeReturn
    refine ⟨frame.mains.trans ?_, arbiter.trans ?_, table.trans ?_, urgent.trans ?_, normal.trans ?_⟩ <;> simp

theorem lockFrequency_hz60 {n : Nat} (h : 2 * n ≤ 15 * 18330) : lockFrequency n = .hz60 := if_neg (by omega)

theorem lockFrequency_hz50 {n : Nat} (h : 15 * 18330 < 2 * n) : lockFrequency n = .hz50 := if_pos h

/-- Settles O5: the sixteenth crossing is counted and the line locks, with the restore sweep where the return flag is
set. -/
theorem sixteenthCrossingLocks : Obligations.SixteenthCrossingLocks := by
  unfold Obligations.SixteenthCrossingLocks
  intro time s due line good low high
  let run := s.setMains (·.counted time)
  have taken : exec (.zeroCrossing time) s = .next run.lock := by
    rw [exec_crossing_acquiring time due line,
      crossingAcquiring_counts (by omega) (goodSpacing_iff.mpr ⟨low, high⟩), if_pos (by omega)]
  have first (h : s.mains.returnFlag = false) : run.lock.refresh = s.refresh ∧ run.lock.fifo = s.fifo := by
    rw [lock_first (s := run) h]
    exact ⟨rfl, rfl⟩
  obtain ⟨mains, arbiter, table, urgent, normal⟩ := lock_frame run
  refine ⟨run.lock, taken, ?_⟩
  dsimp only
  rw [mains, arbiter, table, urgent, normal]
  refine ⟨rfl, rfl, rfl, rfl, rfl, fun slow => ?_, fun fast => ?_, rfl, rfl, rfl, rfl, rfl, rfl,
    first, fun back => ?_, rfl, rfl, rfl⟩
  · exact congrArg some (lockFrequency_hz60 slow)
  · exact congrArg some (lockFrequency_hz50 fast)
  · rw [lock_return (s := run) back]
    exact takeReturn_refresh (run.layGrid (lockFrequency run.mains.runSum))

/-! ## Mains loss (R6, R66) -/

/-- A record at mains loss, in the words of the statement: its flight is over, its mark gone, and its image UNKNOWN
where it has a desired tariff. -/
theorem recordAtLoss_eq (s : State) (r : Record) :
    s.recordAtLoss r = { s.afterFlight r with
      mark := none, image := if r.cls = .pass ∨ r.desired = none then r.image else .unknown } := by
  rw [afterFlight_eq]
  unfold State.recordAtLoss
  dsimp only
  by_cases wants : r.cls = .pass ∨ r.desired = none <;> cases r.redecodeDue <;> simp [wants, Record.redecoded]

theorem recordAtLoss_addr (s : State) (r : Record) : (s.recordAtLoss r).addr = r.addr := by
  rw [recordAtLoss_eq]
  rfl

/-- The blocks' loss, before the notices: every record is taken by R66. -/
theorem lookup_loseBlocks (s : State) (a : Addr) : s.loseBlocks.lookup a = (s.lookup a).map s.recordAtLoss :=
  lookup_map (recordAtLoss_addr s) a

theorem exec_mainsLoss {s : State} (due : s.mains.boundaryDue = false) (line : s.mains.line = .up)
    (missing : s.mains.missing = 1) :
    exec .mainsLoss s = .next (noticeChange s (s.loseBlocks.setMains Mains.lose)) := by
  simp only [exec, execMainsLoss, line, missing, and_self, if_true, takeLoss, takeBoundary_of_not_due due]

theorem lookup_loss (s : State) (a : Addr) :
    (noticeChange s (s.loseBlocks.setMains Mains.lose)).lookup a = (s.lookup a).map s.recordAtLoss :=
  (lookup_congr (noticeChange_table _ _) a).trans (lookup_loseBlocks s a)

/-- Settles O9: every field is the one that the blocks' own rules leave, since the rise of MAINS_DOWN writes the notices
alone. -/
theorem mainsLossStopsTheLine : Obligations.MainsLossStopsTheLine := by
  unfold Obligations.MainsLossStopsTheLine
  intro s due line missing
  have absent (a : Addr) (h : s.lookup a = none) :
      (noticeChange s (s.loseBlocks.setMains Mains.lose)).lookup a = none := by
    rw [lookup_loss, h, Option.map_none]
  have stored (a : Addr) (r : Record) (h : s.lookup a = some r) :
      (noticeChange s (s.loseBlocks.setMains Mains.lose)).lookup a = some (s.recordAtLoss r) := by
    rw [lookup_loss, h, Option.map_some]
  simp only [recordAtLoss_eq] at stored
  refine ⟨_, exec_mainsLoss due line missing,
    ?_, ?_, ?_, ?_, ?_, ?_, ?_, ?_, ?_, ?_, ?_, ?_, ?_, ?_, ?_, absent, stored⟩
  all_goals simp [Mains.lose, Arbiter.lose]

end Sys2Proof.Machine
end

section
/-! PROOF. The listening slot: what a receive path takes (R22), and the outcome of the three paths (R23). -/

namespace Sys2Proof.Machine

/-! ## What a path takes (R22) -/

theorem hearLine_closed {s : State} (p : Phase) (bytes : List Byte) (q : Quality) (h : s.listeners = []) :
    hearLine p bytes q s = s := by
  simp [hearLine, h]

/-- After a good frame a path takes nothing. -/
theorem hearLine_later {s : State} {p : Phase} (bytes : List Byte) (q : Quality)
    (h : s.receivers.path p = .other ∨ ∃ f k, s.receivers.path p = .ack f k) : hearLine p bytes q s = s := by
  unfold hearLine
  split
  · rfl
  · rcases h with other | ⟨f, k, ack⟩
    · simp only [other]
    · simp only [ack]

section Listening

variable {s : State} {p : Phase} {bytes : List Byte} (q : Quality) (listening : s.listeners ≠ [])
  (free : s.receivers.path p = .quiet ∨ s.receivers.path p = .energy)
include listening free

theorem hearLine_bad (read : readLine bytes = .bad) :
    hearLine p bytes q s = { s with receivers := s.receivers.setPath p .energy } := by
  rcases free with path | path <;> simp [hearLine, listening, path, read]

theorem hearLine_other (read : readLine bytes = .other) :
    hearLine p bytes q s = { s with receivers := s.receivers.setPath p .other }.countStale := by
  rcases free with path | path <;> simp [hearLine, listening, path, read]

theorem hearLine_ack {f : AckFrame} (read : readLine bytes = .ack f) :
    hearLine p bytes q s
      = if answersOne f s.listeners then { s with receivers := s.receivers.setPath p (.ack f q) }
        else { s with receivers := s.receivers.setPath p (.ack f q) }.countStale := by
  rcases free with path | path <;> simp [hearLine, listening, path, read]

end Listening

/-- Settles O13: a closed slot, a path that has a good frame, and each reading of a path that has none. -/
theorem receiverTakesFrame : Obligations.ReceiverTakesFrame := by
  unfold Obligations.ReceiverTakesFrame
  intro p bytes q s
  have row : exec (.lineFrameReceived p bytes q) s = .next (hearLine p bytes q s) := rfl
  rw [row]
  refine ⟨fun closed => ?_, fun listening free => ⟨fun bad => ?_, fun f ack answers => ?_, fun f ack stale => ?_,
    fun other => ?_⟩, fun _ later => ?_⟩
  · rw [hearLine_closed p bytes q closed]
  · rw [hearLine_bad q listening free bad]
  · rw [hearLine_ack q listening free ack, if_pos answers]
  · rw [hearLine_ack q listening free ack, if_neg (by simp [stale])]
    rfl
  · rw [hearLine_other q listening free other]
    rfl
  · rw [hearLine_later bytes q later]

/-! ## The ACK that counts (R23) -/

/-- The best quality among the ACKs; 0 where there is none. -/
def topQuality (acks : List (Phase × AckFrame × Quality)) : Nat := acks.foldl (fun m x => max m x.2.2.toNat) 0

/-- The ACKs of the best quality, in the order A, B, C. -/
def tiedAcks (acks : List (Phase × AckFrame × Quality)) : List (Phase × AckFrame × Quality) :=
  acks.filter fun x => x.2.2.toNat == topQuality acks

theorem le_foldl_max {α : Type} (f : α → Nat) (l : List α) (m : Nat) :
    m ≤ l.foldl (fun m x => max m (f x)) m ∧ ∀ x ∈ l, f x ≤ l.foldl (fun m x => max m (f x)) m := by
  induction l generalizing m with
  | nil => exact ⟨Nat.le_refl m, fun x hx => absurd hx List.not_mem_nil⟩
  | cons y ys ih =>
    obtain ⟨start, rest⟩ := ih (max m (f y))
    refine ⟨Nat.le_trans (Nat.le_max_left _ _) start, fun x hx => ?_⟩
    rcases List.mem_cons.mp hx with rfl | hx
    · exact Nat.le_trans (Nat.le_max_right _ _) start
    · exact rest x hx

theorem foldl_max_attained {α : Type} (f : α → Nat) (l : List α) (m : Nat) :
    l.foldl (fun m x => max m (f x)) m = m ∨ ∃ x ∈ l, f x = l.foldl (fun m x => max m (f x)) m := by
  induction l generalizing m with
  | nil => exact .inl rfl
  | cons y ys ih =>
    rcases ih (max m (f y)) with same | ⟨x, hx, e⟩
    · rcases Nat.le_total (f y) m with le | ge
      · exact .inl (same.trans (Nat.max_eq_left le))
      · exact .inr ⟨y, List.mem_cons_self, (same.trans (Nat.max_eq_right ge)).symm⟩
    · exact .inr ⟨x, List.mem_cons_of_mem y hx, e⟩

theorem le_topQuality {acks : List (Phase × AckFrame × Quality)} {x : Phase × AckFrame × Quality} (h : x ∈ acks) :
    x.2.2.toNat ≤ topQuality acks :=
  (le_foldl_max (fun y : Phase × AckFrame × Quality => y.2.2.toNat) acks 0).2 x h

theorem mem_tiedAcks {acks : List (Phase × AckFrame × Quality)} {x : Phase × AckFrame × Quality} :
    x ∈ tiedAcks acks ↔ x ∈ acks ∧ x.2.2.toNat = topQuality acks := by
  simp [tiedAcks]

/-- Where a path gave an ACK, one of them is of the best quality. -/
theorem tiedAcks_ne_nil {acks : List (Phase × AckFrame × Quality)} (h : acks ≠ []) : tiedAcks acks ≠ [] := by
  have best : ∃ x ∈ acks, x.2.2.toNat = topQuality acks := by
    rcases foldl_max_attained (fun x : Phase × AckFrame × Quality => x.2.2.toNat) acks 0 with zero | attained
    · obtain ⟨x, hx⟩ := List.exists_mem_of_ne_nil acks h
      exact ⟨x, hx, Nat.le_antisymm (le_topQuality hx) (by simp [topQuality, zero])⟩
    · exact attained
  obtain ⟨x, hx, top⟩ := best
  exact List.ne_nil_of_mem (mem_tiedAcks.mpr ⟨hx, top⟩)

/-- The choice among the tied: the transaction's own coupler, else the first. -/
theorem bestAck_cases {own : Coupler} {acks : List (Phase × AckFrame × Quality)} {x : Phase × AckFrame × Quality}
    (h : bestAck own acks = some x) :
    (x ∈ tiedAcks acks ∧ own = .single x.1)
      ∨ ((∀ y ∈ tiedAcks acks, own ≠ .single y.1) ∧ (tiedAcks acks).head? = some x) := by
  unfold bestAck at h
  dsimp only at h
  split at h
  · next y found =>
    cases h
    have tied : x ∈ tiedAcks acks := List.mem_of_find?_eq_some found
    have mine := List.find?_some found
    exact .inl ⟨tied, (beq_iff_eq.mp mine).symm⟩
  · next absent =>
    refine .inr ⟨fun y hy mine => ?_, h⟩
    exact List.find?_eq_none.mp absent y hy (by simp [mine])

theorem bestAck_mem_tied {own : Coupler} {acks : List (Phase × AckFrame × Quality)}
    {x : Phase × AckFrame × Quality} (h : bestAck own acks = some x) : x ∈ tiedAcks acks := by
  rcases bestAck_cases h with ⟨tied, -⟩ | ⟨-, head⟩
  · exact tied
  · exact List.mem_of_mem_head? head

/-- Where a path gave an ACK, one counts. -/
theorem bestAck_isSome {acks : List (Phase × AckFrame × Quality)} (own : Coupler) (h : acks ≠ []) :
    ∃ x, bestAck own acks = some x := by
  have head : ∃ x, (tiedAcks acks).head? = some x := ⟨_, List.head?_eq_some_head (tiedAcks_ne_nil h)⟩
  unfold bestAck
  dsimp only
  split
  · exact ⟨_, rfl⟩
  · exact head

/-! ## The outcome (R23) -/

theorem mem_acksHeard {paths : List (Phase × Heard)} {p : Phase} {f : AckFrame} {q : Quality} :
    (p, f, q) ∈ acksHeard paths ↔ (p, Heard.ack f q) ∈ paths := by
  unfold acksHeard
  rw [List.mem_filterMap]
  constructor
  · rintro ⟨⟨x, heard⟩, mem, e⟩
    cases heard <;> simp only [Option.some.injEq, Prod.mk.injEq, reduceCtorEq] at e
    obtain ⟨rfl, rfl, rfl⟩ := e
    exact mem
  · exact fun mem => ⟨_, mem, rfl⟩

/-- An outcome of ACK is the ACK that counts. -/
theorem combine_ack {own : Coupler} {paths : List (Phase × Heard)} {x : Phase × AckFrame × Quality}
    (h : bestAck own (acksHeard paths) = some x) : combine own paths = .ack x.2.1 x.1 x.2.2 := by
  simp only [combine, h]

/-- Without an ACK the outcome is the best failure. -/
theorem combine_failure {own : Coupler} {paths : List (Phase × Heard)} (h : acksHeard paths = []) :
    combine own paths =
      if paths.any fun x => x.2 == .authFail then .authFail
      else if paths.any fun x => x.2 == .garbled then .garbled
      else .silent := by
  have noAck : bestAck own (acksHeard paths) = none := by
    rw [h]
    rfl
  simp only [combine, noAck]

theorem bestAck_of_combine {own : Coupler} {paths : List (Phase × Heard)} {f : AckFrame} {p : Phase} {q : Quality}
    (h : combine own paths = .ack f p q) : bestAck own (acksHeard paths) = some (p, f, q) := by
  by_cases empty : acksHeard paths = []
  · rw [combine_failure empty] at h
    split at h
    · cases h
    · split at h <;> cases h
  · obtain ⟨x, best⟩ := bestAck_isSome own empty
    rw [combine_ack best] at h
    cases h
    exact best

/-- The paths stand in the order A, B, C, and so do the tied ACKs. -/
theorem tiedAcks_ordered {paths : List (Phase × Heard)}
    (h : paths.Pairwise fun x y => Phase.code x.1 ≤ Phase.code y.1) :
    (tiedAcks (acksHeard paths)).Pairwise fun x y => Phase.code x.1 ≤ Phase.code y.1 := by
  refine List.Pairwise.filter _ (List.Pairwise.filterMap _ (fun x y le u hu v hv => ?_) h)
  obtain ⟨px, hx⟩ := x
  obtain ⟨py, hy⟩ := y
  cases hx <;> simp only [Option.some.injEq, reduceCtorEq] at hu
  cases hy <;> simp only [Option.some.injEq, reduceCtorEq] at hv
  subst hu hv
  exact le

/-- The tie of R23, for paths in the order A, B, C: the transaction's own coupler if it is among the tied, else the
first of them. -/
theorem combine_tie {own : Coupler} {paths : List (Phase × Heard)} {f : AckFrame} {p : Phase} {q : Quality}
    (ordered : paths.Pairwise fun x y => Phase.code x.1 ≤ Phase.code y.1) (h : combine own paths = .ack f p q) :
    let tied := fun x : Phase => ∃ f' q', (x, Heard.ack f' q') ∈ paths ∧ q'.toNat = q.toNat
    (∀ x, own = .single x → tied x → p = x)
      ∧ ((∀ x, own = .single x → ¬tied x) → ∀ x, tied x → Phase.code p ≤ Phase.code x) := by
  have best := bestAck_of_combine h
  obtain ⟨heard, top⟩ := mem_tiedAcks.mp (bestAck_mem_tied best)
  have mem {x : Phase} : (∃ f' q', (x, Heard.ack f' q') ∈ paths ∧ q'.toNat = q.toNat)
      ↔ ∃ y ∈ tiedAcks (acksHeard paths), y.1 = x := by
    simp only [mem_tiedAcks, ← top, Prod.exists, mem_acksHeard]
    constructor
    · rintro ⟨f', q', at', e⟩
      exact ⟨x, f', q', ⟨at', e⟩, rfl⟩
    · rintro ⟨_, f', q', ⟨at', e⟩, rfl⟩
      exact ⟨f', q', at', e⟩
  dsimp only
  simp only [mem]
  rcases bestAck_cases best with ⟨tied, mine⟩ | ⟨others, head⟩
  · refine ⟨fun x e _ => ?_, fun untied => absurd ⟨_, tied, rfl⟩ (untied p mine)⟩
    rw [mine] at e
    cases e
    rfl
  · refine ⟨fun x e ⟨y, hy, at'⟩ => absurd (at' ▸ e) (others y hy), fun _ x ⟨y, hy, at'⟩ => ?_⟩
    obtain ⟨rest, cons⟩ := List.head?_eq_some_iff.mp head
    have order := tiedAcks_ordered ordered
    rw [cons] at order hy
    subst at'
    rcases List.mem_cons.mp hy with rfl | later
    · exact Nat.le_refl _
    · exact List.rel_of_pairwise_cons order later

/-- Where a path gave an ACK, the outcome is the one heard at the highest quality (R23). -/
theorem combine_best (own : Coupler) {paths : List (Phase × Heard)} (h : acksHeard paths ≠ []) :
    ∃ f p q, combine own paths = .ack f p q ∧ (p, Heard.ack f q) ∈ paths
      ∧ ∀ p' f' q', (p', Heard.ack f' q') ∈ paths → q'.toNat ≤ q.toNat := by
  obtain ⟨⟨p, f, q⟩, best⟩ := bestAck_isSome own h
  obtain ⟨heard, top⟩ := mem_tiedAcks.mp (bestAck_mem_tied best)
  refine ⟨f, p, q, combine_ack best, mem_acksHeard.mp heard, fun p' f' q' mem => ?_⟩
  exact top ▸ le_topQuality (mem_acksHeard.mpr mem)

theorem acksHeard_eq_nil {paths : List (Phase × Heard)} (h : ∀ p f q, (p, Heard.ack f q) ∉ paths) :
    acksHeard paths = [] :=
  List.eq_nil_iff_forall_not_mem.mpr fun _ mem => h _ _ _ (mem_acksHeard.mp mem)

/-! ## The classification (R22) -/

theorem answers_iff {f : AckFrame} {seq : Seq} {a : Addr} :
    f.answers seq a = true ↔ f.seq = seq ∧ f.addr = a.setWidth 16 := by
  simp [AckFrame.answers]

theorem classify_ack (seq : Seq) (a : Addr) (check : CheckValue) (f : AckFrame) (q : Quality) :
    classify seq a check (.ack f q)
      = if f.seq = seq ∧ f.addr = a.setWidth 16 then (if f.check = check then .ack f q else .authFail)
        else .silent := by
  simp only [classify, answers_iff]

/-- Settles O15: the failures are ranked where no ACK is heard, the choice among the ACKs is that of `combine_best` and
`combine_tie`, and a path is classified by `classify_ack`. -/
theorem bestResultCounts : Obligations.BestResultCounts := by
  unfold Obligations.BestResultCounts
  refine ⟨fun own a b d => ?_, fun seq target check => ?_, fun s c a r found => ?_⟩
  · dsimp only
    refine ⟨fun noA noB noC => ?_, fun ⟨f, q, ack⟩ => ?_, fun f p q h => ?_⟩
    · have noAck := acksHeard_eq_nil (paths := [(.a, a), (.b, b), (.c, d)])
        (by simp [Ne.symm (noA _ _), Ne.symm (noB _ _), Ne.symm (noC _ _)])
      simp only [combine_failure noAck, List.any_cons, List.any_nil, Bool.or_false, Bool.or_eq_true, beq_iff_eq]
      refine ⟨fun fail => if_pos fail, fun failA failB failC => ?_⟩
      rw [if_neg (by simp [failA, failB, failC])]
      refine ⟨fun garbled => if_pos garbled, ?_⟩
      rintro rfl rfl rfl
      rfl
    · refine combine_best own fun noAck => ?_
      have no : ∀ p, (p, Heard.ack f q) ∉ [(Phase.a, a), (.b, b), (.c, d)] := fun p mem => by
        simpa [noAck] using mem_acksHeard.mpr mem
      rcases ack with rfl | rfl | rfl
      · exact no .a (by simp)
      · exact no .b (by simp)
      · exact no .c (by simp)
    · exact combine_tie (by simp [Phase.code]) h
  · refine ⟨rfl, rfl, rfl, fun f q => ?_⟩
    dsimp only
    rw [classify_ack]
    refine ⟨fun mine same => ?_, fun mine other => ?_, fun others => ?_⟩
    · rw [if_pos mine, if_pos same]
    · rw [if_pos mine, if_neg other]
    · rw [if_neg others]
  · simp only [State.lineResult, found]
    rfl

end Sys2Proof.Machine
end
